-- ==== Sys2Proof/Word.lean ====
section
/-! DEFINITION. Word.lean: the word types of the block. Every stream element, buffer element and
checksum is an unsigned 8-bit value (00_scope.md rule R6, `BYTE_W`); a telemetry field is 16 bits. -/

namespace Sys2Proof

/-- An unsigned 8-bit value: a stream byte, a buffer byte, a checksum, an 8-bit register. -/
abbrev Byte := BitVec 8

/-- An unsigned 16-bit value: a telemetry field or a sample frequency. -/
abbrev Half := BitVec 16

end Sys2Proof
end

