-- ==== Sys2Proof/Config.lean ====
section
/-! DEFINITION. Config.lean: the fixed parameters of 00_scope.md rule R6, and the open parameters of
rule R7 as opaque constants that no definition of the model reads (log entry 14). -/

namespace Sys2Proof.Config

/-- `TLM_HDR`, the value of both telemetry header bytes (R6). -/
def tlmHdr : Byte := 0x59#8

/-- `TLM_LEN`, the length of a telemetry frame in bytes (R6). -/
def tlmLen : Nat := 9

/-- `CMD_HDR`, the header byte of a command request and of a response (R6). -/
def cmdHdr : Byte := 0x5A#8

/-- `LEN_OVERHEAD`: header, length, command id and checksum (R6). -/
def lenOverhead : Nat := 4

/-- `P_MAX`, the largest parameter count of a request (R6). -/
def pMax : Nat := 251

/-- `LEN_MIN`, the smallest legal length byte (R6). -/
def lenMin : Nat := 4

/-- `LEN_MAX`, the largest length byte (R6). -/
def lenMax : Nat := 255

/-- `BUF_SIZE`, the number of bytes in each frame buffer (R6). -/
def bufSize : Nat := 255

/-- `TEMP_DIV`, the divisor of the temperature formula (R6). -/
def tempDiv : Nat := 8

/-- `TEMP_OFF`, the offset of the temperature formula (R6). -/
def tempOff : Nat := 256

/-- The open parameter `BAUD` (R7): any value; no rule reads it. -/
opaque baud : Nat

/-- The open parameter `LINE_FORMAT` (R7): any value; no rule reads it. -/
opaque lineFormat : Nat

/-- The open parameter `RX_TIMEOUT` (R7): any value; no rule reads it. -/
opaque rxTimeout : Nat

/-- The open parameter `CLK_HZ` (R7): any value; no rule reads it. -/
opaque clkHz : Nat

/-- The open parameter `RX_FIFO_DEPTH` (R7): any value; no rule reads it. -/
opaque rxFifoDepth : Nat

end Sys2Proof.Config
end

