-- ==== Sys2Proof/Syntax.lean ====
section
/-! DEFINITION. Syntax.lean: command ids, error codes, the host request record and the instructions,
one constructor of `Instr` for each row of spec/opcode_table.json. -/

namespace Sys2Proof

/-- The closed enumeration `CommandId` (30_encoding.md rule R64). -/
inductive CommandId where
  | getVersion
  | softReset
  | sampleFreq
deriving DecidableEq, Repr

/-- The error codes of 60_exceptions.md rule R170, code 0 first. -/
inductive ErrCode where
  /-- code 0: no error since the last accepted request -/
  | none
  /-- code 1 -/
  | invalidHeader
  /-- code 2 -/
  | invalidChecksum
  /-- code 3 -/
  | unknownCommand
  /-- code 4 -/
  | serialTimeout
  /-- code 5 -/
  | transportError
  /-- code 6 -/
  | invalidLength
  /-- code 7 -/
  | badRequest
deriving DecidableEq, Repr

/-- A host request, format H (30_encoding.md rule R77), as the request port carries it: all 251
parameter lanes of `op_params` (60_exceptions.md rule R189), of which a request means the first
`plen` (log entry 11). -/
structure HostReq where
  opSel  : BitVec 3
  cmd    : Byte
  plen   : Byte
  params : Vector Byte 251
  freq   : Half
deriving DecidableEq, Repr

/-- The instructions: one constructor for each row of spec/opcode_table.json, in the table's order.
A wire frame carries every byte the encoding leaves free, its checksum byte among them; the length
byte of a request is 4 plus the number of its parameters and so is no operand. -/
inductive Instr where
  /-- TLM_FRAME, format T (R61). -/
  | tlmFrame (distance strength temp : Half) (csum : Byte)
  /-- REQ_GETVERSION, `5A 04 01 cs` (R65). -/
  | reqGetversion (csum : Byte)
  /-- REQ_SOFTRESET, `5A len 02 params cs` (R65). -/
  | reqSoftreset (params : List Byte) (csum : Byte)
  /-- REQ_SAMPLEFREQ, `5A 06 03 lo hi cs` (R65, R68). -/
  | reqSamplefreq (freq : Half) (csum : Byte)
  /-- REQ_GENERIC, `5A len id params cs` (R62). -/
  | reqGeneric (id : Byte) (params : List Byte) (csum : Byte)
  /-- RSP_GETVERSION, `5A len 01 data cs` (R63, R65). -/
  | rspGetversion (len : Byte) (data : List Byte) (csum : Byte)
  /-- RSP_SOFTRESET, `5A len 02 data cs` (R63, R65). -/
  | rspSoftreset (len : Byte) (data : List Byte) (csum : Byte)
  /-- RSP_SAMPLEFREQ, `5A len 03 data cs` (R63, R65). -/
  | rspSamplefreq (len : Byte) (data : List Byte) (csum : Byte)
  /-- RSP_GENERIC, `5A len id data cs` (R63). -/
  | rspGeneric (len id : Byte) (data : List Byte) (csum : Byte)
  /-- TLM, `op_sel = 0` (R76, R100). -/
  | tlm
  /-- BUILD, `op_sel = 1` (R76, R121). -/
  | build (cmd plen : Byte) (params : List Byte)
  /-- SEND, `op_sel = 2` (R76, R122). -/
  | send (cmd plen : Byte) (params : List Byte)
  /-- RECV, `op_sel = 3` (R76, R135). -/
  | recv
  /-- SETFREQ, `op_sel = 4` (R76, R156). -/
  | setfreq (freq : Half)
  /-- GETVER, `op_sel = 5` (R76, R157). -/
  | getver
  /-- The reserved operation code 6 (R76). -/
  | reservedOp6
  /-- The reserved operation code 7 (R76). -/
  | reservedOp7
deriving DecidableEq, Repr

/-- Where an encoded instruction stands: on the request port, on the RX stream or on the TX stream.
Formats C and R have one layout and differ in direction (R60), so the decoder is told the direction,
as the block is by the operation in progress (R72; log entry 8). -/
inductive Encoded where
  /-- a request on the host's port, format H -/
  | host (req : HostReq)
  /-- a frame from the device, format T or R -/
  | rx (frame : List Byte)
  /-- a frame to the device, format C -/
  | tx (frame : List Byte)
deriving DecidableEq, Repr

end Sys2Proof
end

