-- ==== Sys2Proof/Machine/Frame.lean ====
section
/-! DEFINITION. Machine/Frame.lean: the pure functions over bytes and frames: the checksum
(40_primitives.md rule R90), command ids (30_encoding.md rule R64), field assembly (R66 to R68), the
encoder `build_command` (42_command_encode_send.md rule R120) and the parser `parse_frame`
(43_command_receive.md rule R144). -/

namespace Sys2Proof.Machine

/-- `checksum(bytes)`: the sum modulo 256, the carry dropped at every addition (R90). -/
def checksum : List Byte → Byte
  | [] => 0#8
  | b :: bs => b + checksum bs

/-- The byte of a command id (R64). -/
def cmdByte : CommandId → Byte
  | .getVersion => 0x01#8
  | .softReset => 0x02#8
  | .sampleFreq => 0x03#8

/-- `cmd_of_byte(b)`: nothing for every byte outside the enumeration (R64). -/
def cmdOfByte (b : Byte) : Option CommandId :=
  if b = 0x01#8 then some .getVersion
  else if b = 0x02#8 then some .softReset
  else if b = 0x03#8 then some .sampleFreq
  else none

/-- A 16-bit field from two consecutive bytes, the lower offset first: `{x[k+1], x[k]}` (R66). -/
def u16 (lo hi : Byte) : Half := hi ++ lo

/-- Bits 7 to 0 of a 16-bit value (R68). -/
def lowByte (v : Half) : Byte := v.extractLsb' 0 8

/-- Bits 15 to 8 of a 16-bit value (R68). -/
def highByte (v : Half) : Byte := v.extractLsb' 8 8

/-- The two parameters of a SampleFreq request, the low byte first (R68). -/
def freqParams (freq : Half) : List Byte := [lowByte freq, highByte freq]

/-- The length byte of a request with `n` parameters, `4 + n` (R67); used for `n <= 251` only. -/
def requestLen (n : Nat) : Byte := BitVec.ofNat 8 (Config.lenOverhead + n)

/-- The bytes of a request that its checksum covers: header, length, command id, parameters (R71). -/
def requestBody (id : Byte) (params : List Byte) : List Byte :=
  [Config.cmdHdr, requestLen params.length, id] ++ params

/-- `build_command(command_id, parameters)` (R120), for at most 251 parameters. -/
def buildCommand (id : Byte) (params : List Byte) : List Byte :=
  requestBody id params ++ [checksum (requestBody id params)]

/-- `parse_frame(s)`: the receive algorithm on a finite byte sequence, the id and the data bytes or
the error the receiver would raise; running out of bytes stands for a timeout (R144). -/
def parseFrame (s : List Byte) : Except ErrCode (Byte × List Byte) :=
  match s with
  | [] => .error .serialTimeout
  | h :: rest =>
    if h ≠ Config.cmdHdr then .error .invalidHeader
    else match rest with
      | [] => .error .serialTimeout
      | l :: _ =>
        if l.toNat < Config.lenMin then .error .invalidLength
        else if s.length < l.toNat then .error .serialTimeout
        else if (cmdOfByte (s.getD 2 0#8)).isNone then .error .unknownCommand
        else if checksum (s.take (l.toNat - 1)) ≠ s.getD (l.toNat - 1) 0#8 then
          .error .invalidChecksum
        else .ok (s.getD 2 0#8, (s.drop 3).take (l.toNat - 4))

/-- The number of an error code (60_exceptions.md rule R170). -/
def errNumber : ErrCode → BitVec 3
  | .none => 0#3
  | .invalidHeader => 1#3
  | .invalidChecksum => 2#3
  | .unknownCommand => 3#3
  | .serialTimeout => 4#3
  | .transportError => 5#3
  | .invalidLength => 6#3
  | .badRequest => 7#3

end Sys2Proof.Machine
end

