-- ==== Sys2Proof/WellFormed.lean ====
section
/-! DEFINITION. WellFormed.lean: which instructions an encoding can carry (`Instr.wellFormed`), and
which of them meet the spec's invariants of a frame or a request (`Instr.legal`). A received frame
with a bad checksum or an unknown id is well-formed and is run (it raises its error); it is not legal. -/

namespace Sys2Proof

open Machine (checksum cmdOfByte requestBody freqParams)

/-- A request frame's parameters have an encoding (30_encoding.md rule R67). -/
def paramsFit (params : List Byte) : Bool := decide (params.length ≤ Config.pMax)

/-- A response's length byte is at least 4 and equals the total frame size (R63). -/
def responseFramed (len : Byte) (data : List Byte) : Bool :=
  decide (Config.lenMin ≤ len.toNat) && decide (data.length + Config.lenOverhead = len.toNat)

/-- The bytes of a response that its checksum covers (R71). -/
def responseBody (len id : Byte) (data : List Byte) : List Byte :=
  [Config.cmdHdr, len, id] ++ data

/-- The arguments of BUILD and SEND are well-formed: a known id, at most 251 parameters, and as many
parameters listed as `plen` says (R77). -/
def requestArgsOk (cmd plen : Byte) (params : List Byte) : Bool :=
  (cmdOfByte cmd).isSome && decide (plen.toNat ≤ Config.pMax) && decide (params.length = plen.toNat)

/-- The general request form that no more special row of the table covers: GetVersion with
parameters, or SampleFreq with a parameter count other than 2 (R62, R65, R79). -/
def genericRequest (id : Byte) (params : List Byte) : Bool :=
  (decide (id = 0x01#8) && decide (params ≠ [])) || (decide (id = 0x03#8) && decide (params.length ≠ 2))

/-- The instruction is legal: a frame that meets its format's invariants (R62, R63), a request that
is well-formed in the sense of R77. -/
def Instr.legal : Instr → Bool
  | .tlmFrame .. => true
  | .reqGetversion csum => decide (csum = checksum (requestBody 0x01#8 []))
  | .reqSoftreset params csum => paramsFit params && decide (csum = checksum (requestBody 0x02#8 params))
  | .reqSamplefreq freq csum => decide (csum = checksum (requestBody 0x03#8 (freqParams freq)))
  | .reqGeneric id params csum =>
    paramsFit params && genericRequest id params && decide (csum = checksum (requestBody id params))
  | .rspGetversion len data csum =>
    responseFramed len data && decide (csum = checksum (responseBody len 0x01#8 data))
  | .rspSoftreset len data csum =>
    responseFramed len data && decide (csum = checksum (responseBody len 0x02#8 data))
  | .rspSamplefreq len data csum =>
    responseFramed len data && decide (csum = checksum (responseBody len 0x03#8 data))
  | .rspGeneric len id data csum =>
    responseFramed len data && (cmdOfByte id).isSome && decide (csum = checksum (responseBody len id data))
  | .tlm => true
  | .build cmd plen params => requestArgsOk cmd plen params
  | .send cmd plen params => requestArgsOk cmd plen params
  | .recv => true
  | .setfreq _ => true
  | .getver => true
  | .reservedOp6 => false
  | .reservedOp7 => false

/-- The operands are ones the instruction's own row of the table can carry: every checksum byte,
every id a response can bring, every request the port can bring; the lengths must be the encoding's,
and a frame that a more special row covers is that row's (R79, log entry 8). -/
def Instr.wellFormed : Instr → Bool
  | .tlmFrame .. => true
  | .reqGetversion _ => true
  | .reqSoftreset params _ => paramsFit params
  | .reqSamplefreq _ _ => true
  | .reqGeneric id params _ => paramsFit params && genericRequest id params
  | .rspGetversion len data _ => responseFramed len data
  | .rspSoftreset len data _ => responseFramed len data
  | .rspSamplefreq len data _ => responseFramed len data
  | .rspGeneric len id data _ => responseFramed len data && (cmdOfByte id).isNone
  | .tlm => true
  | .build _ plen params => decide (params.length = min plen.toNat Config.pMax)
  | .send _ plen params => decide (params.length = min plen.toNat Config.pMax)
  | .recv => true
  | .setfreq _ => true
  | .getver => true
  | .reservedOp6 => true
  | .reservedOp7 => true

end Sys2Proof
end

