-- ==== Sys2Proof/Decode.lean ====
section
/-! DEFINITION. Decode.lean: the decoder, total on any bytes, rejecting by name, then the encoder and
the reading of an opcode-table word (30_encoding.md rules R60 to R79). -/

namespace Sys2Proof

open Machine (checksum cmdOfByte u16 lowByte highByte requestLen freqParams)

/-- Why bytes are no instruction. -/
inductive DecodeError where
  /-- format T: the first two bytes are not 59 59 -/
  | noTelemetryHeader
  /-- formats C and R: the first byte is not 5A -/
  | noCommandHeader
  /-- a request whose length byte is below 4: `length` is 4 plus the parameter count -/
  | lengthBelowFour
  /-- a request whose command id is outside the enumeration: it is never built (R73) -/
  | unknownCommand
  /-- fewer bytes than the format or the length byte asks for -/
  | truncated
  /-- a word with bits outside the row's -/
  | noSuchWord
deriving DecidableEq, Repr

/-- The instruction a host request selects by `op_sel` (R76): every code has a row of the table. -/
def decodeHost (r : HostReq) : Instr :=
  match r.opSel.toNat with
  | 0 => .tlm
  | 1 => .build r.cmd r.plen (r.params.toList.take r.plen.toNat)
  | 2 => .send r.cmd r.plen (r.params.toList.take r.plen.toNat)
  | 3 => .recv
  | 4 => .setfreq r.freq
  | 5 => .getver
  | 6 => .reservedOp6
  | _ => .reservedOp7

/-- Format T: nine bytes with the header 59 59 (R61); bytes behind them are not looked at. -/
def decodeTelemetry (bytes : List Byte) : Except DecodeError Instr :=
  match bytes with
  | h0 :: h1 :: d0 :: d1 :: s0 :: s1 :: t0 :: t1 :: c :: _ =>
    if h0 = Config.tlmHdr ∧ h1 = Config.tlmHdr then
      .ok (.tlmFrame (u16 d0 d1) (u16 s0 s1) (u16 t0 t1) c)
    else .error .noTelemetryHeader
  | _ => .error .truncated

/-- The row of the table a request belongs to: the most special one (R65, R79). -/
def requestRow (id : Byte) (params : List Byte) (csum : Byte) : Except DecodeError Instr :=
  match cmdOfByte id, params with
  | some .getVersion, [] => .ok (.reqGetversion csum)
  | some .sampleFreq, [lo, hi] => .ok (.reqSamplefreq (u16 lo hi) csum)
  | some .softReset, _ => .ok (.reqSoftreset params csum)
  | some _, _ => .ok (.reqGeneric id params csum)
  | none, _ => .error .unknownCommand

/-- Format C: header, length byte, command id, parameters, checksum (R62); bytes behind the length
byte's count are not looked at. -/
def decodeRequest (bytes : List Byte) : Except DecodeError Instr :=
  match bytes with
  | h :: l :: id :: rest =>
    if h ≠ Config.cmdHdr then .error .noCommandHeader
    else if l.toNat < Config.lenMin then .error .lengthBelowFour
    else match rest.drop (l.toNat - 4) with
      | [] => .error .truncated
      | csum :: _ => requestRow id (rest.take (l.toNat - 4)) csum
  | _ => .error .truncated

/-- The row of the table a response belongs to (R65, R79). -/
def responseRow (len id : Byte) (data : List Byte) (csum : Byte) : Instr :=
  match cmdOfByte id with
  | some .getVersion => .rspGetversion len data csum
  | some .softReset => .rspSoftreset len data csum
  | some .sampleFreq => .rspSamplefreq len data csum
  | none => .rspGeneric len id data csum

/-- Format R: header, length byte, command id, data, checksum (R63). A length byte below 4 names no
frame, and the receiver fails at it (R137); such bytes decode to the row of their id with no data,
which is not well-formed (log entry 10). -/
def decodeResponse (bytes : List Byte) : Except DecodeError Instr :=
  match bytes with
  | h :: l :: id :: rest =>
    if h ≠ Config.cmdHdr then .error .noCommandHeader
    else match rest.drop (l.toNat - 4) with
      | [] => .error .truncated
      | csum :: _ => .ok (responseRow l id (rest.take (l.toNat - 4)) csum)
  | _ => .error .truncated

/-- The decoder. On the RX stream the header byte tells format T from format R (R60). -/
def decode : Encoded → Except DecodeError Instr
  | .host r => .ok (decodeHost r)
  | .rx bytes => if bytes.head? = some Config.tlmHdr then decodeTelemetry bytes else decodeResponse bytes
  | .tx bytes => decodeRequest bytes

/-- The 251 parameter lanes of a request with the given parameters; the lanes it does not use are 0. -/
def paramLanes (params : List Byte) : Vector Byte 251 :=
  ⟨((params ++ List.replicate 251 0#8).take 251).toArray, by
    rw [List.size_toArray, List.length_take, List.length_append, List.length_replicate]; omega⟩

/-- A host request with the code and arguments given; arguments it does not use are 0 (R77). -/
def hostReq (opSel : BitVec 3) (cmd plen : Byte) (params : List Byte) (freq : Half) : HostReq :=
  { opSel := opSel, cmd := cmd, plen := plen, params := paramLanes params, freq := freq }

/-- The bytes of a request frame, format C (R62). -/
def encodeRequest (id : Byte) (params : List Byte) (csum : Byte) : List Byte :=
  [Config.cmdHdr, requestLen params.length, id] ++ params ++ [csum]

/-- The bytes of a response frame, format R (R63). -/
def encodeResponse (len id : Byte) (data : List Byte) (csum : Byte) : List Byte :=
  [Config.cmdHdr, len, id] ++ data ++ [csum]

/-- The bytes of a telemetry frame, format T (R61). -/
def encodeTelemetry (distance strength temp : Half) (csum : Byte) : List Byte :=
  [Config.tlmHdr, Config.tlmHdr, lowByte distance, highByte distance, lowByte strength,
    highByte strength, lowByte temp, highByte temp, csum]

/-- The encoder: the words of an instruction and where they stand (R61 to R63, R65, R76, R77). -/
def encode : Instr → Encoded
  | .tlmFrame distance strength temp csum => .rx (encodeTelemetry distance strength temp csum)
  | .reqGetversion csum => .tx (encodeRequest 0x01#8 [] csum)
  | .reqSoftreset params csum => .tx (encodeRequest 0x02#8 params csum)
  | .reqSamplefreq freq csum => .tx (encodeRequest 0x03#8 (freqParams freq) csum)
  | .reqGeneric id params csum => .tx (encodeRequest id params csum)
  | .rspGetversion len data csum => .rx (encodeResponse len 0x01#8 data csum)
  | .rspSoftreset len data csum => .rx (encodeResponse len 0x02#8 data csum)
  | .rspSamplefreq len data csum => .rx (encodeResponse len 0x03#8 data csum)
  | .rspGeneric len id data csum => .rx (encodeResponse len id data csum)
  | .tlm => .host (hostReq 0#3 0#8 0#8 [] 0#16)
  | .build cmd plen params => .host (hostReq 1#3 cmd plen params 0#16)
  | .send cmd plen params => .host (hostReq 2#3 cmd plen params 0#16)
  | .recv => .host (hostReq 3#3 0#8 0#8 [] 0#16)
  | .setfreq freq => .host (hostReq 4#3 0#8 0#8 [] freq)
  | .getver => .host (hostReq 5#3 0#8 0#8 [] 0#16)
  | .reservedOp6 => .host (hostReq 6#3 0#8 0#8 [] 0#16)
  | .reservedOp7 => .host (hostReq 7#3 0#8 0#8 [] 0#16)

/-- The bytes of an opcode-table word: the table puts byte 0 in the most significant place (R79;
log entry 9), and every byte of the frame behind the word is 0. -/
def tableBytes (nbits w : Nat) : List Byte :=
  let n := nbits / 8
  ((List.range n).map fun k => BitVec.ofNat 8 (w / 256 ^ (n - 1 - k))) ++ List.replicate (255 - n) 0#8

/-- Bytes whose direction is not known. Formats C and R share their layout: the most special row of
the table is taken, and where a request's and a response's row are alike, the request's if the bytes
can be one (log entry 8). -/
def decodeUndirected (bytes : List Byte) : Except DecodeError Instr :=
  if bytes.head? = some Config.tlmHdr then decodeTelemetry bytes
  else match decodeRequest bytes with
    | .ok (.reqGeneric ..) => decodeResponse bytes
    | .ok i => .ok i
    | .error _ => decodeResponse bytes

/-- The instruction the decoder reads from an opcode-table word: up to one byte the word is `op_sel`
(format H, R79), of two bytes or more it is the first bytes of a frame. -/
def decodeTableWord (nbits w : Nat) : Option Instr :=
  if nbits ≤ 8 then
    if w < 8 then (decode (.host (hostReq (BitVec.ofNat 3 w) 0#8 0#8 [] 0#16))).toOption else none
  else if w < 2 ^ nbits then (decodeUndirected (tableBytes nbits w)).toOption else none

end Sys2Proof
end

