-- ==== Sys2Proof/Machine/State.lean ====
section
/-! DEFINITION. Machine/State.lean: the controller states, events, results, input pins, the state
record with its reset value, and the reasons a step can stop (10_state.md, 60_exceptions.md). -/

namespace Sys2Proof.Machine

/-- The ten controller states of `fsm` (10_state.md rule R14); codes 10 to 15 never occur
(93_implementation_defined.md U9). -/
inductive Fsm where
  /-- 0 `IDLE`: no operation in progress -/
  | idle
  /-- 1 `T_SEEK0`: scanning, the last byte was not a first header byte -/
  | tSeek0
  /-- 2 `T_SEEK1`: one 59 seen -/
  | tSeek1
  /-- 3 `T_READ`: both header bytes matched -/
  | tRead
  /-- 4 `C_SEND`: transmitting the frame in `t` -/
  | cSend
  /-- 5 `R_HDR`: waiting for the header byte of a response -/
  | rHdr
  /-- 6 `R_LEN`: waiting for the length byte -/
  | rLen
  /-- 7 `R_PAY`: reading the payload -/
  | rPay
  /-- 8 `R_CSUM`: waiting for the checksum byte -/
  | rCsum
  /-- 9 `DEAD`: the session has ended -/
  | dead
deriving DecidableEq, Repr

/-- The values of `op`: the operation in progress or last accepted (10_state.md rule R17,
30_encoding.md rule R76); the reserved codes 6 and 7 are never accepted (log entry 16). -/
inductive Op where
  | tlm
  | build
  | send
  | recv
  | setfreq
  | getver
deriving DecidableEq, Repr

/-- The result events (30_encoding.md rule R78). -/
inductive Result where
  /-- kind 0 -/
  | tlmFrame (dist strength tempRaw : Half) (csumOk : Bool)
  /-- kind 1 -/
  | tlmHdrInvalid
  /-- kind 2 -/
  | buildDone
  /-- kind 3 -/
  | sendDone
  /-- kind 4 -/
  | recvDone (id : Byte) (data : List Byte)
  /-- kind 5 -/
  | freqDone
  /-- kind 6 -/
  | verDone (patch minor major : Byte)
  /-- kind 7 -/
  | error (code : ErrCode) (corr : Bool)
deriving DecidableEq, Repr

/-- One output of the block: a byte on the TX stream or a result event (00_scope.md rule R8). -/
inductive Output where
  | tx (b : Byte)
  | res (r : Result)
deriving DecidableEq, Repr

/-- The input events (60_exceptions.md rule R176). -/
inductive Event where
  | reset
  | cancel
  | hostReq (req : HostReq)
  | rxByte (b : Byte)
  | rxTimeout
  | txAccept
  | txFail
deriving DecidableEq, Repr

/-- The input pins of the block at one clock edge (60_exceptions.md rule R189). `req` is the record
`op_sel`, `op_cmd`, `op_plen`, `op_params`, `op_freq`. -/
structure Pins where
  rst       : Bool
  cancel    : Bool
  opValid   : Bool
  req       : HostReq
  rxValid   : Bool
  rxData    : Byte
  rxTimeout : Bool
  txReady   : Bool
  txFail    : Bool
  xAddr     : Byte
  tAddr     : Byte
deriving DecidableEq, Repr

/-- The contents of a frame buffer: (index, byte) pairs, indices strictly rising and below 255. A
buffer byte that nothing has written is not listed and holds no value (10_state.md rule R27; log
entry 5). -/
abbrev Memory := List Host.Cell

/-- Which of the two frame buffers (20_memory.md rule R40). -/
inductive Buffer where
  /-- the receive buffer -/
  | x
  /-- the transmit buffer -/
  | t
deriving DecidableEq, Repr

/-- The state of the block (10_state.md rules R12 to R22), and, last, the three streams of the model
that join it to its environment (log entries 1 and 4). -/
structure State where
  /-- controller state (R14) -/
  fsm : Fsm
  /-- operation in progress or last accepted (R17) -/
  op : Op
  /-- command id to correlate the response with (R17) -/
  reqId : Byte
  /-- number of bytes of the current frame already stored (R13) -/
  cnt : Byte
  /-- length byte of the response in progress (R13) -/
  len : Byte
  /-- running checksum (R13, R92) -/
  acc : Byte
  /-- receive frame buffer (R12) -/
  x : Memory
  /-- transmit frame buffer (R18) -/
  t : Memory
  /-- number of valid bytes in `t` (R18) -/
  txLen : Byte
  /-- index of the next byte to hand to the transport (R18) -/
  txIdx : Byte
  /-- telemetry result: distance (R19) -/
  dist : Half
  /-- telemetry result: signal strength (R19) -/
  strength : Half
  /-- telemetry result: raw temperature (R19) -/
  tempRaw : Half
  /-- telemetry result: checksum match (R19) -/
  csumOk : Bool
  /-- a telemetry frame has been completed since reset (R19) -/
  tlmValid : Bool
  /-- response result: command id (R20) -/
  respId : Byte
  /-- response result: number of data bytes (R20) -/
  respLen : Byte
  /-- `x` holds a validated response (R20) -/
  respValid : Bool
  /-- version result (R21) -/
  verPatch : Byte
  /-- version result (R21) -/
  verMinor : Byte
  /-- version result (R21) -/
  verMajor : Byte
  /-- the version registers hold a version (R21) -/
  verValid : Bool
  /-- code of the last error (R22) -/
  err : ErrCode
  /-- the last error was a correlation error (R22) -/
  errCorr : Bool
  /-- MODEL: the input pins of the clock edges to come, the next one first (log entry 1) -/
  inputs : List Pins
  /-- MODEL: the bytes of the RX stream consumed so far, in order (R48; log entry 4) -/
  rxLog : List Byte
  /-- MODEL: the TX bytes and result events so far, in order (R8, R49; log entry 4) -/
  out : List Output
deriving DecidableEq, Repr

/-- Why a step of the MODEL stops. None of these is a condition of the spec: a hard error of the spec
is taken by `raiseError` and gives a next state. No run from reset reaches any of them
(`Safety.Inv`). -/
inductive Fault where
  /-- Raised by a read of a buffer byte that nothing has written: it holds no value (10_state.md rule
  R27). Safe: the model stops where the spec gives no value. -/
  | unwrittenByte (buffer : Buffer) (index : Nat)
  /-- Raised by an access to a buffer index of 255 or more, which does not exist (20_memory.md rule
  R40). Safe. -/
  | noSuchIndex (buffer : Buffer) (index : Nat)
  /-- Raised when a byte is taken in a combination of registers for which no row of the transition
  table exists (10_state.md rule R16, "There are no other transitions"). Safe (log entry 6). -/
  | noTransition (fsm : Fsm)
deriving DecidableEq, Repr

/-- Why the model has no meaning for an instruction. -/
inductive Refusal where
  /-- Raised by an arm of `exec` whose instruction has no meaning yet. No arm is left that raises it.
  Safe. -/
  | notModelled (mnemonic : String)
deriving DecidableEq, Repr

/-- The state right after reset (10_state.md rule R26): every register 0, `fsm = IDLE`, no buffer byte
holds a value; no input to come, nothing consumed, nothing put out. -/
def State.reset : State where
  fsm := .idle
  op := .tlm
  reqId := 0#8
  cnt := 0#8
  len := 0#8
  acc := 0#8
  x := []
  t := []
  txLen := 0#8
  txIdx := 0#8
  dist := 0#16
  strength := 0#16
  tempRaw := 0#16
  csumOk := false
  tlmValid := false
  respId := 0#8
  respLen := 0#8
  respValid := false
  verPatch := 0#8
  verMinor := 0#8
  verMajor := 0#8
  verValid := false
  err := .none
  errCorr := false
  inputs := []
  rxLog := []
  out := []

/-- What a meaning answers. -/
abbrev Out := Host.Outcome State Fault Refusal

end Sys2Proof.Machine
end

