-- ==== Sys2Proof/Machine/Ops.lean ====
section
/-! DEFINITION. Machine/Ops.lean: the named operations over buffers, streams and registers, and the
block's trap entry `raise` (60_exceptions.md rule R180) with `refuse` (R178), `Cancel` (R184) and
`Reset` (70_reset_and_hazards.md rule R200). -/

namespace Sys2Proof.Machine

/-! ## Buffers as memories -/

/-- The byte at an index, if it holds a value. -/
def Memory.read : Memory → Nat → Option Byte
  | [], _ => none
  | (j, c) :: m, i => if i = j then some c else Memory.read m i

/-- Writes one byte; the list stays sorted by index. -/
def Memory.write : Memory → Nat → Byte → Memory
  | [], i, b => [(i, b)]
  | (j, c) :: m, i, b =>
    if i < j then (i, b) :: (j, c) :: m
    else if i = j then (i, b) :: m
    else (j, c) :: Memory.write m i b

/-- The canonical form: indices strictly rising, all of them indices of the buffer. No entry equals
what an unlisted index reads as, since an unlisted index reads as no value. -/
abbrev Memory.wf (m : Memory) : Prop :=
  m.Pairwise (fun a b => a.1 < b.1) ∧ ∀ c ∈ m, c.1 < Config.bufSize

/-- `n` bytes from an index on, if all of them hold a value. -/
def Memory.readBytes (m : Memory) (start : Nat) : Nat → Option (List Byte)
  | 0 => some []
  | n + 1 =>
    match m.read start, Memory.readBytes m (start + 1) n with
    | some b, some bs => some (b :: bs)
    | _, _ => none

/-- Writes bytes from an index on, in order. -/
def Memory.writeBytes (m : Memory) (start : Nat) : List Byte → Memory
  | [] => m
  | b :: bs => Memory.writeBytes (m.write start b) (start + 1) bs

/-- The number that bytes stand for, the lower index the less significant (00_scope.md rule R8). -/
def littleEndian : List Byte → Nat
  | [] => 0
  | b :: bs => b.toNat + 256 * littleEndian bs

/-- `MemRead(addr, n)` (R8). -/
def Memory.memRead (m : Memory) (addr n : Nat) : Option Nat := (m.readBytes addr n).map littleEndian

/-- The low `n` bytes of a number, the least significant first (R8). -/
def lowBytes : Nat → Nat → List Byte
  | 0, _ => []
  | n + 1, v => BitVec.ofNat 8 v :: lowBytes n (v / 256)

/-- `MemWrite(addr, n, v)` (R8). -/
def Memory.memWrite (m : Memory) (addr n v : Nat) : Memory := m.writeBytes addr (lowBytes n v)

/-- The contents of a buffer. -/
def State.buffer (s : State) : Buffer → Memory
  | .x => s.x
  | .t => s.t

/-! ## Outcomes and buffer access inside a step -/

/-- Goes on with the next state; a stop stays a stop. -/
def andThen (o : Out) (k : State → Out) : Out :=
  match o with
  | .next s => k s
  | .fault f => .fault f
  | .refused r => .refused r

/-- Reads one byte of a buffer and goes on with it. -/
def withByte (buf : Buffer) (i : Nat) (s : State) (k : Byte → Out) : Out :=
  if i < Config.bufSize then
    match (s.buffer buf).read i with
    | some b => k b
    | none => .fault (.unwrittenByte buf i)
  else .fault (.noSuchIndex buf i)

/-- Reads a 16-bit field of the receive buffer, `{x[i+1], x[i]}` (20_memory.md rule R41). -/
def withField (i : Nat) (s : State) (k : Half → Out) : Out :=
  withByte .x i s fun lo => withByte .x (i + 1) s fun hi => k (u16 lo hi)

/-- Reads `n` bytes of the receive buffer and goes on with them. -/
def withBytes (start n : Nat) (s : State) (k : List Byte → Out) : Out :=
  match s.x.readBytes start n with
  | some bs => k bs
  | none => .fault (.unwrittenByte .x start)

/-- `x[i] <- b`, and goes on. -/
def storeByte (i : Nat) (b : Byte) (s : State) (k : State → Out) : Out :=
  if i < Config.bufSize then k { s with x := s.x.write i b } else .fault (.noSuchIndex .x i)

/-! ## Streams -/

/-- `emit K(payload)`: appends a result event to the block's output (R8). -/
def emit (r : Result) (s : State) : State := { s with out := s.out ++ [.res r] }

/-- `tx(b)`: appends a byte to the TX stream (R8). -/
def txByte (b : Byte) (s : State) : State := { s with out := s.out ++ [.tx b] }

/-- Consumes a byte of the RX stream, for good (20_memory.md rule R45). -/
def consume (b : Byte) (s : State) : State := { s with rxLog := s.rxLog ++ [b] }

/-- The bytes put on the TX stream so far. -/
def State.txStream (s : State) : List Byte :=
  s.out.filterMap fun o => match o with
    | .tx b => some b
    | .res _ => none

/-- The result events emitted so far. -/
def State.results (s : State) : List Result :=
  s.out.filterMap fun o => match o with
    | .tx _ => none
    | .res r => some r

/-! ## Errors: the block's trap entry -/

/-- Where a hard error leaves the controller (R180). -/
def afterError (e : ErrCode) : Fsm := if e = .transportError then .dead else .idle

/-- `raise E`, `raise E(corr)`: every hard error raised inside an operation does exactly this (R180).
There is no return from it but the next request (R181). -/
def raiseError (e : ErrCode) (corr : Bool) (s : State) : State :=
  { s with
    err := e, errCorr := corr, cnt := 0#8, respValid := false, fsm := afterError e,
    out := s.out ++ [.res (.error e corr)] }

/-- `refuse E`: reports the error of a request that is not accepted and changes nothing but the error
registers (R178). -/
def refuseRequest (e : ErrCode) (s : State) : State :=
  { s with err := e, errCorr := false, out := s.out ++ [.res (.error e false)] }

/-- `Cancel` (R184): no effect in `IDLE` and `DEAD`; elsewhere the operation ends with no result. -/
def cancelOperation (s : State) : State :=
  match s.fsm with
  | .idle => s
  | .dead => s
  | _ => { s with cnt := 0#8, respValid := false, fsm := .idle }

/-- `Reset` (R200): every register takes its reset value and no buffer byte holds a value. The streams
are the environment's and are not touched. -/
def resetRegisters (s : State) : State :=
  { State.reset with inputs := s.inputs, rxLog := s.rxLog, out := s.out }

/-! ## Accepting a request -/

/-- What accepting any well-formed request writes: `op`, and the error registers to 0 (10_state.md
rules R17, R22). -/
def acceptOp (o : Op) (s : State) : State := { s with op := o, err := .none, errCorr := false }

/-- Accepting an operation that receives hides what `x` held: `cnt <- 0`, `resp_valid <- 0`
(20_memory.md rule R53). -/
def hideReceived (s : State) : State := { s with cnt := 0#8, respValid := false }

/-- Puts a frame into `t`: `t[0..]`, `tx_len`, `tx_idx <- 0` (10_state.md rule R18). -/
def loadFrame (f : List Byte) (s : State) : State :=
  { s with t := s.t.writeBytes 0 f, txLen := BitVec.ofNat 8 f.length, txIdx := 0#8 }

/-- Takes a host request: in `IDLE` the request is looked at; in `DEAD` every request is refused with
`TransportError` (60_exceptions.md rule R185); in any other state the event is not enabled and
nothing happens (10_state.md rule R15; log entry 3). -/
def onRequest (s : State) (k : State → Out) : Out :=
  match s.fsm with
  | .idle => k s
  | .dead => .next (refuseRequest .transportError s)
  | _ => .next s

end Sys2Proof.Machine
end

