-- ==== Sys2Proof/Machine/Operands.lean ====
section
/-! DEFINITION. Machine/Operands.lean: the operands of requests and frames: the parameters of a
request (30_encoding.md rule R77), the bytes of a frame that are still to come, the numbers of the
codes. -/

namespace Sys2Proof.Machine

/-- The parameters a request means: `params[0..plen-1]` (R77). -/
def requestParams (plen : Byte) (params : List Byte) : List Byte := params.take plen.toNat

/-- A BUILD or SEND request is well-formed: its id is in the enumeration and `plen <= 251` (R77). -/
def requestAccepted (cmd plen : Byte) : Bool :=
  (cmdOfByte cmd).isSome && decide (plen.toNat ≤ Config.pMax)

/-- The visible part of the receive buffer, `x[0..cnt-1]` (10_state.md rule R28). -/
def State.visibleX (s : State) : Option (List Byte) := s.x.readBytes 0 s.cnt.toNat

/-- The visible part of the transmit buffer, `t[0..tx_len-1]` (10_state.md rule R18). -/
def State.visibleT (s : State) : Option (List Byte) := s.t.readBytes 0 s.txLen.toNat

/-- The bytes of a received frame that the block has still to take: those behind the `cnt` bytes it
has stored, if these are the frame's first ones; otherwise the whole frame (log entry 7). -/
def bytesToCome (frame : List Byte) (s : State) : List Byte :=
  if s.visibleX = some (frame.take s.cnt.toNat) then frame.drop s.cnt.toNat else frame

/-- How many bytes of a request frame are still to be handed over: none unless the frame is the one in
`t` (20_memory.md rule R49; log entry 7). -/
def bytesToSend (frame : List Byte) (s : State) : Nat :=
  if s.visibleT = some frame then s.txLen.toNat - s.txIdx.toNat else 0

/-- The number of a controller state (10_state.md rule R14). -/
def fsmNumber : Fsm → BitVec 4
  | .idle => 0#4
  | .tSeek0 => 1#4
  | .tSeek1 => 2#4
  | .tRead => 3#4
  | .cSend => 4#4
  | .rHdr => 5#4
  | .rLen => 6#4
  | .rPay => 7#4
  | .rCsum => 8#4
  | .dead => 9#4

/-- The number of an operation (30_encoding.md rule R76). -/
def opNumber : Op → BitVec 3
  | .tlm => 0#3
  | .build => 1#3
  | .send => 2#3
  | .recv => 3#3
  | .setfreq => 4#3
  | .getver => 5#3

/-- The number of a result kind (30_encoding.md rule R78). -/
def resultNumber : Result → BitVec 3
  | .tlmFrame .. => 0#3
  | .tlmHdrInvalid => 1#3
  | .buildDone => 2#3
  | .sendDone => 3#3
  | .recvDone .. => 4#3
  | .freqDone => 5#3
  | .verDone .. => 6#3
  | .error .. => 7#3

end Sys2Proof.Machine
end

