-- ==== Sys2Proof/Machine/Flags.lean ====
section
/-! DEFINITION. Machine/Flags.lean: the flag and status computations: the status values `busy` and
`dead` (10_state.md rule R23), the checksum match (41_telemetry_decoder.md rule R106), the verdict on
a response (43_command_receive.md rule R140) and the decoded temperature (R107). The valid flags and
the error flags are written by the rules that cite 10_state.md rules R19 to R22. -/

namespace Sys2Proof.Machine

/-- `busy = (fsm is not IDLE and not DEAD)` (R23). -/
def Fsm.busy : Fsm → Bool
  | .idle => false
  | .dead => false
  | _ => true

/-- `dead = (fsm = DEAD)` (R23). -/
def Fsm.isDead (f : Fsm) : Bool := decide (f = .dead)

/-- `RXS`: the states that wait for a received byte (60_exceptions.md rule R190). -/
def Fsm.receiving : Fsm → Bool
  | .tSeek0 => true
  | .tSeek1 => true
  | .tRead => true
  | .rHdr => true
  | .rLen => true
  | .rPay => true
  | .rCsum => true
  | .idle => false
  | .cSend => false
  | .dead => false

/-- `csum_ok`: the running checksum equals the received checksum byte (R106). -/
def csumMatches (computed received : Byte) : Bool := decide (computed = received)

/-- The verdict on a complete response frame (R140). -/
inductive Verdict where
  | unknownCommand
  | badChecksum
  | good
deriving DecidableEq, Repr

/-- `frame_verdict`: the id is checked before the checksum (R140). -/
def frameVerdict (idByte computed received : Byte) : Verdict :=
  if (cmdOfByte idByte).isNone then .unknownCommand
  else if computed ≠ received then .badChecksum
  else .good

/-- `temp_q3 = zext_17(temp_raw) - 2048`, a 17-bit two's-complement number of eighths of a degree
(R107). -/
def tempQ3 (tempRaw : Half) : BitVec 17 :=
  tempRaw.setWidth 17 - BitVec.ofNat 17 (Config.tempOff * Config.tempDiv)

end Sys2Proof.Machine
end

