-- ==== Sys2Proof/Machine/Command.lean ====
section
/-! DEFINITION. Machine/Command.lean: BUILD, SEND, the reserved operation codes, and the steps of the
sender (42_command_encode_send.md, 60_exceptions.md rule R178). -/

namespace Sys2Proof.Machine

/-- The frame that BUILD and SEND encode (R120). -/
def requestFrame (cmd plen : Byte) (params : List Byte) : List Byte :=
  buildCommand cmd (requestParams plen params)

/-- BUILD: encode a frame into `t` without sending it (R121). -/
def execBuild (cmd plen : Byte) (params : List Byte) (s : State) : Out :=
  onRequest s fun s =>
    if requestAccepted cmd plen then
      .next (emit .buildDone (loadFrame (requestFrame cmd plen params) (acceptOp .build s)))
    else .next (refuseRequest .badRequest s)

/-- SEND, acceptance: encode a frame and start transmitting it (R122). -/
def execSend (cmd plen : Byte) (params : List Byte) (s : State) : Out :=
  onRequest s fun s =>
    if requestAccepted cmd plen then
      .next { loadFrame (requestFrame cmd plen params) (acceptOp .send s) with fsm := .cSend }
    else .next (refuseRequest .badRequest s)

/-- The reserved code 6: the request is refused (R76, R178). -/
def execReservedOp6 (s : State) : Out :=
  onRequest s fun s => .next (refuseRequest .badRequest s)

/-- The reserved code 7: the request is refused (R76, R178). -/
def execReservedOp7 (s : State) : Out :=
  onRequest s fun s => .next (refuseRequest .badRequest s)

/-- The last byte of the frame has been taken: SEND is done (R124), SETFREQ and GETVER go on to
receive (44_highlevel_ops.md rule R158). -/
def sendFinished (s : State) : Out :=
  match s.op with
  | .send => .next (emit .sendDone { s with fsm := .idle })
  | .setfreq => .next { s with fsm := .rHdr }
  | .getver => .next { s with fsm := .rHdr }
  | _ => .fault (.noTransition s.fsm)

/-- `TxAccept` in `C_SEND`: one byte of the frame is handed over (R123, R124, R158). -/
def sendByte (s : State) : Out :=
  withByte .t s.txIdx.toNat s fun b =>
    if s.txIdx.toNat + 1 < s.txLen.toNat then
      .next { txByte b s with txIdx := s.txIdx + 1#8, fsm := .cSend }
    else if s.txIdx.toNat + 1 = s.txLen.toNat then
      sendFinished { txByte b s with txIdx := s.txIdx + 1#8 }
    else .fault (.noTransition s.fsm)

/-- The event `TxAccept`; enabled in `C_SEND` only (10_state.md rule R15). -/
def takeTxAccept (s : State) : Out := if s.fsm = .cSend then sendByte s else .next s

/-- The event `TxFail`: the session ends (R125); enabled in `C_SEND` only. -/
def takeTxFail (s : State) : Out :=
  if s.fsm = .cSend then .next (raiseError .transportError false s) else .next s

end Sys2Proof.Machine
end

