-- ==== Sys2Proof/Machine/HighLevel.lean ====
section
/-! DEFINITION. Machine/HighLevel.lean: SETFREQ and GETVER: acceptance, the correlation of a response
with its request, and what success writes (44_highlevel_ops.md). -/

namespace Sys2Proof.Machine

/-- SETFREQ, acceptance (R156). -/
def execSetfreq (freq : Half) (s : State) : Out :=
  onRequest s fun s =>
    .next { loadFrame (buildCommand (cmdByte .sampleFreq) (freqParams freq))
              (hideReceived (acceptOp .setfreq s)) with
            reqId := cmdByte .sampleFreq, fsm := .cSend }

/-- GETVER, acceptance (R157). -/
def execGetver (s : State) : Out :=
  onRequest s fun s =>
    .next { loadFrame (buildCommand (cmdByte .getVersion) [])
              (hideReceived (acceptOp .getver s)) with
            reqId := cmdByte .getVersion, verValid := false, fsm := .cSend }

/-- What every successful receive writes: `resp_id`, `resp_len`, `resp_valid`, and back to `IDLE`
(43_command_receive.md rule R141, R160, R161). -/
def recordResponse (id : Byte) (s : State) : State :=
  { s with respId := id, respLen := s.len - 4#8, respValid := true, fsm := .idle }

/-- SETFREQ, success (R160). -/
def finishSetfreq (id : Byte) (s : State) : Out := .next (emit .freqDone (recordResponse id s))

/-- GETVER: fewer than three data bytes fail, otherwise the version is taken positionally from
`x[3]`, `x[4]`, `x[5]` (R161). -/
def finishGetver (id : Byte) (s : State) : Out :=
  if s.len.toNat < 7 then .next (raiseError .invalidLength false s)
  else withByte .x 3 s fun patch => withByte .x 4 s fun minor => withByte .x 5 s fun major =>
    .next (emit (.verDone patch minor major)
      { recordResponse id s with
        verPatch := patch, verMinor := minor, verMajor := major, verValid := true })

/-- The correlation check of SETFREQ and GETVER (R159). -/
def correlate (id : Byte) (s : State) (finish : Byte → State → Out) : Out :=
  if id ≠ s.reqId then .next (raiseError .unknownCommand true s) else finish id s

end Sys2Proof.Machine
end

