-- ==== Sys2Proof/Machine/Response.lean ====
section
/-! DEFINITION. Machine/Response.lean: RECV and the steps of the response receiver
(43_command_receive.md). In every step `b` is the byte of the `RxByte(b)` event. -/

namespace Sys2Proof.Machine

/-- RECV, acceptance (R135). -/
def execRecv (s : State) : Out :=
  onRequest s fun s => .next { hideReceived (acceptOp .recv s) with fsm := .rHdr }

/-- Step 1, header (R136). -/
def receiveHeader (b : Byte) (s : State) : Out :=
  if b = Config.cmdHdr then
    storeByte 0 b s fun s => .next { s with cnt := 1#8, acc := Config.cmdHdr, fsm := .rLen }
  else .next (raiseError .invalidHeader false s)

/-- Step 2, length (R137). -/
def receiveLength (b : Byte) (s : State) : Out :=
  if Config.lenMin ≤ b.toNat then
    storeByte 1 b s fun s => .next { s with cnt := 2#8, len := b, acc := s.acc + b, fsm := .rPay }
  else .next (raiseError .invalidLength false s)

/-- Step 3, payload: the byte at offset `len - 2` is the last one (R138). -/
def receivePayload (b : Byte) (s : State) : Out :=
  storeByte s.cnt.toNat b s fun s =>
    .next { s with
      acc := s.acc + b, cnt := s.cnt + 1#8,
      fsm := if s.cnt.toNat + 2 = s.len.toNat then .rCsum else .rPay }

/-- RECV, success: the id and the `len - 4` data bytes `x[3..len-2]` (R141). -/
def finishRecv (id : Byte) (s : State) : Out :=
  withBytes 3 (s.len.toNat - 4) s fun data =>
    .next (emit (.recvDone id data) (recordResponse id s))

/-- `finish(op)`: what a response with a good verdict completes (R139). -/
def finishResponse (id : Byte) (s : State) : Out :=
  match s.op with
  | .recv => finishRecv id s
  | .setfreq => correlate id s finishSetfreq
  | .getver => correlate id s finishGetver
  | _ => .fault (.noTransition s.fsm)

/-- Step 4, checksum byte, and the checks of steps 5 to 7 in the same step (R139). -/
def receiveChecksum (b : Byte) (s : State) : Out :=
  withByte .x 2 s fun id => storeByte s.cnt.toNat b s fun s =>
    match frameVerdict id s.acc b with
    | .unknownCommand => .next (raiseError .unknownCommand false s)
    | .badChecksum => .next (raiseError .invalidChecksum false s)
    | .good => finishResponse id { s with cnt := s.len }

end Sys2Proof.Machine
end

