-- ==== Sys2Proof/Machine/Telemetry.lean ====
section
/-! DEFINITION. Machine/Telemetry.lean: the operation TLM and the steps of the telemetry decoder
(41_telemetry_decoder.md). In every step `b` is the byte of the `RxByte(b)` event. -/

namespace Sys2Proof.Machine

/-- TLM, acceptance (R100). -/
def execTlm (s : State) : Out :=
  onRequest s fun s => .next { hideReceived (acceptOp .tlm s) with fsm := .tSeek0 }

/-- Seeking, first header byte (R101). -/
def seekFirst (b : Byte) (s : State) : Out :=
  if b = Config.tlmHdr then
    storeByte 0 b s fun s => .next { s with cnt := 1#8, fsm := .tSeek1 }
  else .next { s with fsm := .tSeek0 }

/-- Seeking, second header byte: a match (R102) or a half-header (R104). -/
def seekSecond (b : Byte) (s : State) : Out :=
  if b = Config.tlmHdr then
    storeByte 1 b s fun s => .next { s with cnt := 2#8, acc := 0xB2#8, fsm := .tRead }
  else .next (emit .tlmHdrInvalid { s with cnt := 0#8, fsm := .tSeek0 })

/-- Reading, a body byte at offsets 2 to 7 (R105). -/
def readBody (b : Byte) (s : State) : Out :=
  storeByte s.cnt.toNat b s fun s =>
    .next { s with acc := s.acc + b, cnt := s.cnt + 1#8, fsm := .tRead }

/-- What a completed telemetry frame writes and reports (R106). -/
def reportTelemetry (d st r : Half) (ok : Bool) (s : State) : State :=
  emit (.tlmFrame d st r ok)
    { s with
      dist := d, strength := st, tempRaw := r, csumOk := ok, tlmValid := true,
      cnt := 0#8, fsm := .tSeek0 }

/-- Reading, the ninth byte: decode, verify, report, whether or not the checksum matches (R106). -/
def readLast (b : Byte) (s : State) : Out :=
  withField 2 s fun d => withField 4 s fun st => withField 6 s fun r =>
    storeByte 8 b s fun s => .next (reportTelemetry d st r (csumMatches s.acc b) s)

/-- Reading: `cnt < 8` is a body byte (R105), `cnt = 8` the ninth (R106). -/
def readTelemetry (b : Byte) (s : State) : Out :=
  if s.cnt.toNat < 8 then readBody b s
  else if s.cnt.toNat = 8 then readLast b s
  else .fault (.noTransition s.fsm)

end Sys2Proof.Machine
end

