-- ==== Sys2Proof/Machine/Frames.lean ====
section
/-! DEFINITION. Machine/Frames.lean: the events `RxByte` and `RxTimeout`, the primitives `read_exact`
and `write` as runs of one-byte events (40_primitives.md rules R93 to R95), and the meanings of the
wire frames: a received frame is taken byte by byte, a request frame is handed over byte by byte
(log entry 7). -/

namespace Sys2Proof.Machine

/-- The step that takes a received byte, by controller state (10_state.md rule R16). -/
def receiveStep (b : Byte) (s : State) : Out :=
  match s.fsm with
  | .tSeek0 => seekFirst b s
  | .tSeek1 => seekSecond b s
  | .tRead => readTelemetry b s
  | .rHdr => receiveHeader b s
  | .rLen => receiveLength b s
  | .rPay => receivePayload b s
  | .rCsum => receiveChecksum b s
  | .idle => .next s
  | .cSend => .next s
  | .dead => .next s

/-- The event `RxByte(b)`: the byte is consumed for good (20_memory.md rule R45). Where the event is
not enabled the byte stays with the transport and nothing changes (10_state.md rule R15). -/
def takeRxByte (b : Byte) (s : State) : Out :=
  if s.fsm.receiving then receiveStep b (consume b s) else .next s

/-- The event `RxTimeout`: `SerialTimeout` in every state that waits for a byte (R109, R142). -/
def takeRxTimeout (s : State) : Out :=
  if s.fsm.receiving then .next (raiseError .serialTimeout false s) else .next s

/-- `read_exact` of the given bytes: one `RxByte` event for each of them (R94). Once the operation is
over the block asks for no more bytes, and those left stay with the transport. -/
def takeRxBytes : List Byte → State → Out
  | [], s => .next s
  | b :: bs, s => if s.fsm.receiving then andThen (takeRxByte b s) (takeRxBytes bs) else .next s

/-- `write`: the given number of `TxAccept` events (R95). -/
def takeTxAccepts : Nat → State → Out
  | 0, s => .next s
  | n + 1, s => andThen (takeTxAccept s) (takeTxAccepts n)

/-- A frame from the device: the bytes of it still to come are taken in order. -/
def receiveFrame (frame : List Byte) (s : State) : Out := takeRxBytes (bytesToCome frame s) s

/-- A frame to the device: the bytes of it still to be handed over are handed over in order. -/
def transmitFrame (frame : List Byte) (s : State) : Out :=
  if s.fsm = .cSend then takeTxAccepts (bytesToSend frame s) s else .next s

/-- TLM_FRAME (41_telemetry_decoder.md rules R101 to R106). -/
def execTlmFrame (distance strength temp : Half) (csum : Byte) (s : State) : Out :=
  receiveFrame (encodeTelemetry distance strength temp csum) s

/-- REQ_GETVERSION (R65, R123, R158). -/
def execReqGetversion (csum : Byte) (s : State) : Out :=
  transmitFrame (encodeRequest (cmdByte .getVersion) [] csum) s

/-- REQ_SOFTRESET (R65, R123, R124). -/
def execReqSoftreset (params : List Byte) (csum : Byte) (s : State) : Out :=
  transmitFrame (encodeRequest (cmdByte .softReset) params csum) s

/-- REQ_SAMPLEFREQ (R65, R68, R123, R158). -/
def execReqSamplefreq (freq : Half) (csum : Byte) (s : State) : Out :=
  transmitFrame (encodeRequest (cmdByte .sampleFreq) (freqParams freq) csum) s

/-- REQ_GENERIC (R62, R123, R124). -/
def execReqGeneric (id : Byte) (params : List Byte) (csum : Byte) (s : State) : Out :=
  transmitFrame (encodeRequest id params csum) s

/-- RSP_GETVERSION (R136 to R141, R159, R161). -/
def execRspGetversion (len : Byte) (data : List Byte) (csum : Byte) (s : State) : Out :=
  receiveFrame (encodeResponse len (cmdByte .getVersion) data csum) s

/-- RSP_SOFTRESET (R136 to R141, R159). -/
def execRspSoftreset (len : Byte) (data : List Byte) (csum : Byte) (s : State) : Out :=
  receiveFrame (encodeResponse len (cmdByte .softReset) data csum) s

/-- RSP_SAMPLEFREQ (R136 to R141, R159, R160). -/
def execRspSamplefreq (len : Byte) (data : List Byte) (csum : Byte) (s : State) : Out :=
  receiveFrame (encodeResponse len (cmdByte .sampleFreq) data csum) s

/-- RSP_GENERIC (R63, R136 to R141). -/
def execRspGeneric (len id : Byte) (data : List Byte) (csum : Byte) (s : State) : Out :=
  receiveFrame (encodeResponse len id data csum) s

end Sys2Proof.Machine
end

