-- ==== Sys2Proof/Machine/Dispatch.lean ====
section
/-! DEFINITION. Machine/Dispatch.lean: one arm for each instruction. -/

namespace Sys2Proof.Machine

def exec (i : Instr) (s : State) : Host.Outcome State Fault Refusal :=
  match i with
  | .tlmFrame distance strength temp csum => Sys2Proof.Machine.execTlmFrame distance strength temp csum s
  | .reqGetversion csum => Sys2Proof.Machine.execReqGetversion csum s
  | .reqSoftreset params csum => Sys2Proof.Machine.execReqSoftreset params csum s
  | .reqSamplefreq freq csum => Sys2Proof.Machine.execReqSamplefreq freq csum s
  | .reqGeneric id params csum => Sys2Proof.Machine.execReqGeneric id params csum s
  | .rspGetversion len data csum => Sys2Proof.Machine.execRspGetversion len data csum s
  | .rspSoftreset len data csum => Sys2Proof.Machine.execRspSoftreset len data csum s
  | .rspSamplefreq len data csum => Sys2Proof.Machine.execRspSamplefreq len data csum s
  | .rspGeneric len id data csum => Sys2Proof.Machine.execRspGeneric len id data csum s
  | .tlm => Sys2Proof.Machine.execTlm s
  | .build cmd plen params => Sys2Proof.Machine.execBuild cmd plen params s
  | .send cmd plen params => Sys2Proof.Machine.execSend cmd plen params s
  | .recv => Sys2Proof.Machine.execRecv s
  | .setfreq freq => Sys2Proof.Machine.execSetfreq freq s
  | .getver => Sys2Proof.Machine.execGetver s
  | .reservedOp6 => Sys2Proof.Machine.execReservedOp6 s
  | .reservedOp7 => Sys2Proof.Machine.execReservedOp7 s

end Sys2Proof.Machine
end

