-- ==== Sys2Proof/Machine/Ports.lean ====
section
/-! DEFINITION. Machine/Ports.lean: the ports and handshakes of 60_exceptions.md rules R189 and R190:
which event the input pins make, with the priority of rule R183, what the output ports show, and the
host's buffer reads (10_state.md rules R24, R27). -/

namespace Sys2Proof.Machine

/-- `rx_ready` (R190). -/
def rxReady (p : Pins) (f : Fsm) : Bool := f.receiving && !p.rst && !p.cancel && !p.rxTimeout

/-- `tx_valid` (R190). -/
def txValid (p : Pins) (f : Fsm) : Bool := decide (f = .cSend) && !p.rst && !p.cancel && !p.txFail

/-- `op_ready` (R190). -/
def opReady (p : Pins) (f : Fsm) : Bool := !f.busy && !p.rst && !p.cancel

/-- The event that occurs at a clock edge, if any (R190); the first line that holds is taken, which is
the priority of R183. -/
def portEvent (p : Pins) (f : Fsm) : Option Event :=
  if p.rst then some .reset
  else if p.cancel then some .cancel
  else if p.rxTimeout && f.receiving then some .rxTimeout
  else if p.txFail && decide (f = .cSend) then some .txFail
  else if p.rxValid && rxReady p f then some (.rxByte p.rxData)
  else if txValid p f && p.txReady then some .txAccept
  else if p.opValid && opReady p f then some (.hostReq p.req)
  else none

/-- The pins of an edge at which nothing is asked for or offered. -/
def quietPins : Pins :=
  { rst := false, cancel := false, opValid := false, req := hostReq 0#3 0#8 0#8 [] 0#16,
    rxValid := false, rxData := 0#8, rxTimeout := false, txReady := false, txFail := false,
    xAddr := 0#8, tAddr := 0#8 }

/-- The pins of an edge at which one event, and nothing else, is asked for or offered: the event
model's inputs as inputs of the ports (R190). -/
def eventPins : Event → Pins
  | .reset => { quietPins with rst := true }
  | .cancel => { quietPins with cancel := true }
  | .hostReq r => { quietPins with opValid := true, req := r }
  | .rxByte b => { quietPins with rxValid := true, rxData := b }
  | .rxTimeout => { quietPins with rxTimeout := true }
  | .txAccept => { quietPins with txReady := true }
  | .txFail => { quietPins with txFail := true }

/-- Where an event is enabled (10_state.md rule R15, 60_exceptions.md rule R176). -/
def enabled (e : Event) (f : Fsm) : Bool :=
  match e with
  | .reset => true
  | .cancel => true
  | .hostReq _ => !f.busy
  | .rxByte _ => f.receiving
  | .rxTimeout => f.receiving
  | .txAccept => decide (f = .cSend)
  | .txFail => decide (f = .cSend)

/-- A host read of `x[i]`: only while the block is not busy and only below `cnt` (R24, R27); `none` is
a refused read. -/
def hostReadX (s : State) (i : Nat) : Option Byte :=
  if s.fsm.busy then none else if i < s.cnt.toNat then s.x.read i else none

/-- A host read of `t[i]`: only while the block is not busy and only below `tx_len` (R24, R27). -/
def hostReadT (s : State) (i : Nat) : Option Byte :=
  if s.fsm.busy then none else if i < s.txLen.toNat then s.t.read i else none

/-- The combinational output ports (R189); the registers are ports too and are the fields of
`State`. A port that is not defined at the moment shows nothing. -/
structure PortOut where
  opReady : Bool
  rxReady : Bool
  txValid : Bool
  /-- `tx_data`, while `tx_valid` -/
  txData  : Option Byte
  busy    : Bool
  dead    : Bool
  /-- `x_data` for `x_addr` -/
  xData   : Option Byte
  /-- `t_data` for `t_addr` -/
  tData   : Option Byte
  /-- `temp_q3` (41_telemetry_decoder.md rule R107) -/
  tempQ3  : BitVec 17
deriving DecidableEq, Repr

/-- The output ports in a state, with the given input pins (R189, R190). -/
def portOut (p : Pins) (s : State) : PortOut :=
  { opReady := opReady p s.fsm
    rxReady := rxReady p s.fsm
    txValid := txValid p s.fsm
    txData := if txValid p s.fsm then s.t.read s.txIdx.toNat else none
    busy := s.fsm.busy
    dead := s.fsm.isDead
    xData := hostReadX s p.xAddr.toNat
    tData := hostReadT s p.tAddr.toNat
    tempQ3 := tempQ3 s.tempRaw }

/-- The result port at the edge that leads from one state to the next: `res_valid` with its kind and
payload when a result event was emitted (R189; log entry 19). -/
def resultPort (before after : State) : Option Result := (after.results.drop before.results.length).head?

end Sys2Proof.Machine
end

