-- ==== Sys2Proof/Machine/Events.lean ====
section
/-! DEFINITION. Machine/Events.lean: the event-level step of 00_scope.md rule R8, and how an event
brings an instruction: a host request brings the operation it selects, the last byte of a frame
brings the frame (log entry 7). -/

namespace Sys2Proof.Machine

/-- The encoded instruction that an event completes: a request on the host's port, the nine bytes of a
telemetry frame, the `len` bytes of a response, or the request frame whose last byte the transport
takes. -/
def completedFrame (e : Event) (s : State) : Option Encoded :=
  match e with
  | .hostReq r => some (.host r)
  | .rxByte b =>
    match s.fsm with
    | .tRead => if s.cnt.toNat = 8 then s.visibleX.map fun f => .rx (f ++ [b]) else none
    | .rCsum => s.visibleX.map fun f => .rx (f ++ [b])
    | _ => none
  | .txAccept =>
    if s.fsm = .cSend ∧ s.txIdx.toNat + 1 = s.txLen.toNat then s.visibleT.map .tx else none
  | _ => none

/-- The instruction an event brings, if it brings one. -/
def fetch (e : Event) (s : State) : Option Instr :=
  (completedFrame e s).bind fun w => (decode w).toOption

/-- The event-level step: what each input event does (60_exceptions.md rule R176, 10_state.md rule
R16). -/
def takeEvent (e : Event) (s : State) : Out :=
  match e with
  | .reset => .next (resetRegisters s)
  | .cancel => .next (cancelOperation s)
  | .hostReq r => exec (decodeHost r) s
  | .rxByte b => takeRxByte b s
  | .rxTimeout => takeRxTimeout s
  | .txAccept => takeTxAccept s
  | .txFail => takeTxFail s

/-- Takes an event: the instruction it brings is run; an event that brings none takes effect by
itself. -/
def runEvent (e : Event) (s : State) : Out :=
  match fetch e s with
  | some i => exec i s
  | none => takeEvent e s

/-- One clock edge with the given input pins (60_exceptions.md rules R189, R190): the event that
occurs is taken; if none occurs, no register changes. -/
def runEdge (p : Pins) (s : State) : Out :=
  match portEvent p s.fsm with
  | some e => runEvent e s
  | none => .next s

/-- A run of events, in order, as the event model takes them. -/
def takeEvents : List Event → State → Out
  | [], s => .next s
  | e :: es, s => andThen (takeEvent e s) (takeEvents es)

/-! ## Placing an instruction where the next step fetches it (log entry 12) -/

/-- The block waiting for the last byte of a telemetry frame, which the next edge brings. -/
def placeTelemetry (frame : List Byte) (s : State) : State :=
  { s with
    fsm := .tRead, op := .tlm, cnt := 8#8, respValid := false, acc := checksum (frame.take 8),
    x := s.x.writeBytes 0 (frame.take 8),
    inputs := eventPins (.rxByte (frame.getD 8 0#8)) :: s.inputs }

/-- The block, in a RECV, waiting for the last byte of a response, which the next edge brings. -/
def placeResponse (frame : List Byte) (s : State) : State :=
  let n := frame.length - 1
  { s with
    fsm := .rCsum, op := .recv, cnt := BitVec.ofNat 8 n, respValid := false,
    len := BitVec.ofNat 8 frame.length, acc := checksum (frame.take n),
    x := s.x.writeBytes 0 (frame.take n),
    inputs := eventPins (.rxByte (frame.getD n 0#8)) :: s.inputs }

/-- The block, in a RECV, waiting for a length byte that is too small, which the next edge brings. -/
def placeShortResponse (frame : List Byte) (s : State) : State :=
  { s with
    fsm := .rLen, op := .recv, cnt := 1#8, respValid := false, acc := Config.cmdHdr,
    x := s.x.write 0 Config.cmdHdr,
    inputs := eventPins (.rxByte (frame.getD 1 0#8)) :: s.inputs }

/-- The block, in a SEND, offering the last byte of a request frame, which the next edge takes. -/
def placeRequest (frame : List Byte) (s : State) : State :=
  { s with
    fsm := .cSend, op := .send, t := s.t.writeBytes 0 frame, txLen := BitVec.ofNat 8 frame.length,
    txIdx := BitVec.ofNat 8 (frame.length - 1), inputs := eventPins .txAccept :: s.inputs }

/-- The block, with any running operation cancelled, ready for a host request, which the next edge
offers. -/
def placeHostReq (r : HostReq) (s : State) : State :=
  { cancelOperation s with inputs := eventPins (.hostReq r) :: s.inputs }

/-- Places an encoded instruction where the next step fetches it. -/
def placeEncoded (w : Encoded) (s : State) : State :=
  match w with
  | .host r => placeHostReq r s
  | .rx frame =>
    if frame.head? = some Config.tlmHdr then placeTelemetry frame s
    else if (frame.getD 1 0#8).toNat < Config.lenMin then placeShortResponse frame s
    else placeResponse frame s
  | .tx frame => placeRequest frame s

end Sys2Proof.Machine
end

