-- ==== Sys2Proof/Machine/Step.lean ====
section
/-! DEFINITION. Machine/Step.lean: one step of the machine is one clock edge (60_exceptions.md rules
R189, R190), at which at most one input event is taken (00_scope.md rule R8). -/

namespace Sys2Proof.Machine

/-- One step: the input pins of the next edge are read and the event they make is taken. With no edge
to come nothing changes (log entry 2). -/
def step (s : State) : Host.Outcome State Fault Refusal :=
  match s.inputs with
  | [] => .next s
  | p :: rest => runEdge p { s with inputs := rest }

/-- The state with an opcode-table word's instruction placed where the next step fetches it (log
entry 12). A word that is no instruction is placed nowhere. -/
def State.withFetchWord (s : State) (nbits w : Nat) : State :=
  match decodeTableWord nbits w with
  | some i => placeEncoded (encode i) s
  | none => s

end Sys2Proof.Machine
end

