-- ==== Sys2Proof/Safety.lean ====
section
/-! DEFINITION. Safety.lean: the terms the statements use: the state invariant that the rules imply,
the transition table of 10_state.md rule R16, the end of an operation (70_reset_and_hazards.md rule
R213) and the bound on its steps (60_exceptions.md rule R192). -/

namespace Sys2Proof.Safety

open Sys2Proof.Machine

/-- The operation in progress receives a response. -/
def receivesResponse (o : Op) : Prop := o = .recv ∨ o = .setfreq ∨ o = .getver

/-- Both buffers keep their canonical form, and every visible byte holds a value (10_state.md rules
R18, R27, R28). -/
structure BuffersHold (s : State) : Prop where
  xForm : s.x.wf
  tForm : s.t.wf
  xVisible : s.visibleX.isSome = true
  tVisible : s.visibleT.isSome = true

/-- `t[0..tx_len-1]` is a frame that `build_command` gives, or nothing has been encoded since reset;
`0 <= tx_idx <= tx_len` (10_state.md rule R18). -/
structure RequestHeld (s : State) : Prop where
  index : s.txIdx.toNat ≤ s.txLen.toNat
  frame : s.txLen = 0#8 ∨ ∃ id params, (cmdOfByte id).isSome = true ∧ params.length ≤ Config.pMax ∧
    s.visibleT = some (buildCommand id params)

/-- While `resp_valid` is set, `x[0..cnt-1]` is a validated response frame with the recorded id and
number of data bytes, and no operation that uses `x` runs (10_state.md rule R20). -/
structure ResponseHeld (s : State) : Prop where
  where_ : s.fsm = .idle ∨ (s.fsm = .cSend ∧ s.op = .send)
  whole : s.cnt = s.len
  frame : ∃ f data, s.visibleX = some f ∧ parseFrame f = .ok (s.respId, data) ∧
    data.length = s.respLen.toNat ∧ f.length = s.respLen.toNat + 4

/-- The error registers: the correlation bit only with `UnknownCommand` (10_state.md rule R22), no
error while an operation runs, `TransportError` while the session is over (60_exceptions.md rule
R185). -/
structure ErrorsHold (s : State) : Prop where
  corr : s.errCorr = true → s.err = .unknownCommand
  busy : s.fsm.busy = true → s.err = .none
  dead : s.fsm = .dead → s.err = .transportError

/-- The result and request registers: the id to correlate with (10_state.md rule R17), no version
while one is being fetched (R21), no telemetry fields before the first frame (R19). -/
structure ResultsHold (s : State) : Prop where
  setfreqId : s.op = .setfreq → s.reqId = 0x03#8
  getverId : s.op = .getver → s.reqId = 0x01#8
  version : s.op = .getver → s.fsm.busy = true → s.verValid = false
  telemetry : s.tlmValid = false → s.dist = 0#16 ∧ s.strength = 0#16 ∧ s.tempRaw = 0#16 ∧ s.csumOk = false

/-- What the controller state says of the frame in progress (10_state.md rules R13, R14,
40_primitives.md rule R92, 41_telemetry_decoder.md rule R103, 43_command_receive.md rules R136 to
R139). -/
def FrameInProgress (s : State) : Prop :=
  match s.fsm with
  | .idle => s.cnt = 0#8 ∨ s.respValid = true
  | .tSeek0 => s.op = .tlm ∧ s.cnt = 0#8
  | .tSeek1 => s.op = .tlm ∧ s.cnt = 1#8 ∧ s.visibleX = some [Config.tlmHdr]
  | .tRead => s.op = .tlm ∧ 2 ≤ s.cnt.toNat ∧ s.cnt.toNat ≤ 8 ∧
      ∃ f, s.visibleX = some f ∧ f.take 2 = [Config.tlmHdr, Config.tlmHdr] ∧ s.acc = checksum f
  | .cSend => s.txIdx.toNat < s.txLen.toNat ∧
      ((s.op = .send ∧ (s.cnt = 0#8 ∨ s.respValid = true)) ∨
        ((s.op = .setfreq ∨ s.op = .getver) ∧ s.cnt = 0#8))
  | .rHdr => receivesResponse s.op ∧ s.cnt = 0#8
  | .rLen => receivesResponse s.op ∧ s.cnt = 1#8 ∧ s.visibleX = some [Config.cmdHdr] ∧
      s.acc = Config.cmdHdr
  | .rPay => receivesResponse s.op ∧ 2 ≤ s.cnt.toNat ∧ s.cnt.toNat + 2 ≤ s.len.toNat ∧
      ∃ f, s.visibleX = some f ∧ f.take 2 = [Config.cmdHdr, s.len] ∧ s.acc = checksum f
  | .rCsum => receivesResponse s.op ∧ 4 ≤ s.len.toNat ∧ s.cnt.toNat + 1 = s.len.toNat ∧
      ∃ f, s.visibleX = some f ∧ f.take 2 = [Config.cmdHdr, s.len] ∧ s.acc = checksum f
  | .dead => s.cnt = 0#8

/-- The invariant of the block: what the rules imply of every state a run from reset reaches (log
entry 17). -/
structure Inv (s : State) : Prop where
  buffers : BuffersHold s
  request : RequestHeld s
  response : s.respValid = true → ResponseHeld s
  errors : ErrorsHold s
  results : ResultsHold s
  frame : FrameInProgress s

/-- A host request is well-formed (30_encoding.md rule R77): a code up to 5 and, for BUILD and SEND, a
known id and at most 251 parameters. -/
def requestWellFormed (r : HostReq) : Prop :=
  r.opSel.toNat ≤ 5 ∧ (r.opSel = 1#3 ∨ r.opSel = 2#3 → requestAccepted r.cmd r.plen = true)

/-- The frame that a well-formed BUILD, SEND, SETFREQ or GETVER request puts into `t` (10_state.md rule
R18, 42_command_encode_send.md rules R121, R122, 44_highlevel_ops.md rules R156, R157); TLM, RECV and
the reserved codes have none. -/
def requestedFrame (r : HostReq) : Option (List Byte) :=
  if r.opSel = 1#3 ∨ r.opSel = 2#3 then
    some (buildCommand r.cmd (r.params.toList.take r.plen.toNat))
  else if r.opSel = 4#3 then some (buildCommand 0x03#8 (freqParams r.freq))
  else if r.opSel = 5#3 then some (buildCommand 0x01#8 [])
  else none

/-- What clears `resp_valid`, apart from Reset (10_state.md rule R20): the acceptance of TLM, RECV,
SETFREQ or GETVER, a hard error raised in an operation, and a Cancel of one. -/
def hidesResponse (e : Event) (s t : State) : Prop :=
  (s.fsm = .idle ∧ ∃ r, e = .hostReq r ∧ r.opSel ∈ [0#3, 3#3, 4#3, 5#3]) ∨
  (s.fsm.busy = true ∧ ∃ c k, t.results = s.results ++ [.error c k]) ∨
  (s.fsm.busy = true ∧ e = .cancel)

/-- Where an accepted or refused request leads in `IDLE` (10_state.md rule R16): an ill-formed request
and BUILD stay in `IDLE`. -/
def requestFsm (r : HostReq) : Fsm :=
  if r.opSel = 0#3 then .tSeek0
  else if r.opSel = 2#3 then (if requestAccepted r.cmd r.plen then .cSend else .idle)
  else if r.opSel = 3#3 then .rHdr
  else if r.opSel = 4#3 ∨ r.opSel = 5#3 then .cSend
  else .idle

/-- The transition table of 10_state.md rule R16: the controller state an event leads to. An event
that is not enabled leads nowhere (R15). -/
def tableFsm (s : State) (e : Event) : Fsm :=
  match e, s.fsm with
  | .reset, _ => .idle
  | .cancel, .dead => .dead
  | .cancel, _ => .idle
  | .hostReq r, .idle => requestFsm r
  | .rxByte b, .tSeek0 => if b = 0x59#8 then .tSeek1 else .tSeek0
  | .rxByte b, .tSeek1 => if b = 0x59#8 then .tRead else .tSeek0
  | .rxByte _, .tRead => if s.cnt.toNat < 8 then .tRead else .tSeek0
  | .rxByte b, .rHdr => if b = 0x5A#8 then .rLen else .idle
  | .rxByte b, .rLen => if 4 ≤ b.toNat then .rPay else .idle
  | .rxByte _, .rPay => if s.cnt.toNat + 2 = s.len.toNat then .rCsum else .rPay
  | .rxByte _, .rCsum => .idle
  | .rxTimeout, f => if f.receiving then .idle else f
  | .txAccept, .cSend =>
    if s.txIdx.toNat + 1 < s.txLen.toNat then .cSend
    else if s.op = .send then .idle else .rHdr
  | .txFail, .cSend => .dead
  | _, f => f

/-- An event the transport makes (60_exceptions.md rule R176). -/
def transportEvent : Event → Bool
  | .rxByte _ => true
  | .rxTimeout => true
  | .txAccept => true
  | .txFail => true
  | .reset => false
  | .cancel => false
  | .hostReq _ => false

/-- How many transport events a SEND, RECV, SETFREQ or GETVER may still take: the bytes still to be
handed over, then at most 255 bytes of a response (60_exceptions.md rule R192). -/
def stepsLeft (s : State) : Nat :=
  match s.fsm with
  | .cSend => s.txLen.toNat - s.txIdx.toNat + (if s.op = .send then 0 else 255)
  | .rHdr => 255
  | .rLen => 254
  | .rPay => 255 - s.cnt.toNat
  | .rCsum => 1
  | _ => 0

/-- A run of events each of which is enabled when it is taken, for as long as the operation runs
(10_state.md rule R15). -/
def EnabledRun : List Event → State → Prop
  | [], _ => True
  | e :: es, s => s.fsm.busy = true →
      enabled e s.fsm = true ∧ ∀ s', takeEvent e s = .next s' → EnabledRun es s'

/-- The rows of the table that a response frame belongs to, the general one and its own (30_encoding.md
rule R79). -/
def responseRows (len id : Byte) (data : List Byte) (csum : Byte) : List Instr :=
  [.rspGeneric len id data csum] ++
  (if id = 0x01#8 then [.rspGetversion len data csum] else []) ++
  (if id = 0x02#8 then [.rspSoftreset len data csum] else []) ++
  (if id = 0x03#8 then [.rspSamplefreq len data csum] else [])

/-- The rows of the table that a request frame belongs to, the general one and its own (R79). -/
def requestRows (id : Byte) (params : List Byte) (csum : Byte) : List Instr :=
  [.reqGeneric id params csum] ++
  (if id = 0x01#8 ∧ params = [] then [.reqGetversion csum] else []) ++
  (if id = 0x02#8 then [.reqSoftreset params csum] else []) ++
  (match params with
    | [lo, hi] => if id = 0x03#8 then [.reqSamplefreq (u16 lo hi) csum] else []
    | _ => [])

/-- A legal response's checksum byte: the sum of every byte before it (30_encoding.md rule R63). -/
def responseChecksum (len id : Byte) (data : List Byte) : Byte := checksum (responseBody len id data)

/-- A buffer holds a frame from index 0 on, and behind it what it held before. -/
def holdsFrame (m : Memory) (frame : List Byte) (before : Memory) : Prop :=
  ∀ a, m.read a = if a < frame.length then frame[a]? else before.read a

/-- A buffer differs from what it was in one byte. -/
def holdsByte (m : Memory) (i : Nat) (b : Byte) (before : Memory) : Prop :=
  ∀ a, m.read a = if a = i then some b else before.read a

/-- The outcome of a frame or a prefix of one, as the parser names it: the number of bytes a receive
consumes (43_command_receive.md rule R145). -/
def bytesConsumed (s : List Byte) : Nat :=
  match parseFrame s with
  | .error .invalidHeader => 1
  | .error .invalidLength => 2
  | .error .serialTimeout => s.length
  | _ => (s.getD 1 0#8).toNat

end Sys2Proof.Safety
end

