-- ==== Sys2Proof/Certificates/Slice0/Obligations.lean ====
section
/-! DEFINITION. Certificates/Slice0/Obligations.lean: the statements for the provers. A docstring says
what a statement says and names the rules it formalises. -/

open Sys2Proof Sys2Proof.Machine Sys2Proof.Safety

/-! ## Encoding, decoding and the pure functions -/

/-- For every instruction i (all 17 constructors) that is well-formed, with every operand at every
value its encoding can carry, decode (encode i) is i. (30_encoding.md R61, 30_encoding.md R62,
30_encoding.md R63, 30_encoding.md R76, 30_encoding.md R77, 30_encoding.md R79) -/
def Obligations.DecodeEncodeRoundTrip : Prop :=
  ∀ i : Instr, i.wellFormed = true → decode (encode i) = .ok i

/-- If bytes of the RX stream decode to a well-formed instruction i, then encode i is an RX frame
and the bytes are that frame followed by bytes not looked at. Bytes of the TX stream that decode at
all decode to a well-formed instruction, and the same holds of them. (30_encoding.md R61,
30_encoding.md R62, 30_encoding.md R63, 43_command_receive.md R144) -/
def Obligations.DecodedFrameEncodesBack : Prop :=
  (∀ (bytes : List Byte) (i : Instr), decode (.rx bytes) = .ok i → i.wellFormed = true →
    ∃ f rest, encode i = .rx f ∧ bytes = f ++ rest) ∧
  (∀ (bytes : List Byte) (i : Instr), decode (.tx bytes) = .ok i →
    i.wellFormed = true ∧ ∃ f rest, encode i = .tx f ∧ bytes = f ++ rest)

/-- The frames printed in the spec decode as it says: the telemetry frame of vector T4, the
GetVersion and SampleFreq requests, a SoftReset request with parameters, a GetVersion, a SoftReset,
a SampleFreq and an unknown response, and the eight codes of op_sel select the eight host rows.
(30_encoding.md R61, 30_encoding.md R65, 30_encoding.md R76, 95_test_vectors.md) -/
def Obligations.SpecWordsDecode : Prop :=
  decode (.rx [0x59, 0x59, 0x64, 0x00, 0xC8, 0x00, 0x40, 0x1F, 0x3D]) =
    .ok (.tlmFrame 100#16 200#16 8000#16 0x3D#8) ∧
  decode (.tx [0x5A, 0x04, 0x01, 0x5F]) = .ok (.reqGetversion 0x5F#8) ∧
  decode (.tx [0x5A, 0x06, 0x03, 0x34, 0x12, 0xA9]) = .ok (.reqSamplefreq 0x1234#16 0xA9#8) ∧
  decode (.tx [0x5A, 0x07, 0x02, 0xAA, 0xBB, 0xCC, 0x94]) =
    .ok (.reqSoftreset [0xAA, 0xBB, 0xCC] 0x94#8) ∧
  decode (.rx [0x5A, 0x07, 0x01, 0x02, 0x03, 0x01, 0x68]) =
    .ok (.rspGetversion 7#8 [0x02, 0x03, 0x01] 0x68#8) ∧
  decode (.rx [0x5A, 0x04, 0x02, 0x60]) = .ok (.rspSoftreset 4#8 [] 0x60#8) ∧
  decode (.rx [0x5A, 0x04, 0x03, 0x61]) = .ok (.rspSamplefreq 4#8 [] 0x61#8) ∧
  decode (.rx [0x5A, 0x04, 0xFF, 0x5D]) = .ok (.rspGeneric 4#8 0xFF#8 [] 0x5D#8) ∧
  (∀ r : HostReq,
    (r.opSel = 0#3 → decodeHost r = .tlm) ∧
    (r.opSel = 1#3 → decodeHost r = .build r.cmd r.plen (r.params.toList.take r.plen.toNat)) ∧
    (r.opSel = 2#3 → decodeHost r = .send r.cmd r.plen (r.params.toList.take r.plen.toNat)) ∧
    (r.opSel = 3#3 → decodeHost r = .recv) ∧
    (r.opSel = 4#3 → decodeHost r = .setfreq r.freq) ∧
    (r.opSel = 5#3 → decodeHost r = .getver) ∧
    (r.opSel = 6#3 → decodeHost r = .reservedOp6) ∧
    (r.opSel = 7#3 → decodeHost r = .reservedOp7))

/-- For every byte sequence the checksum is the sum of its elements as naturals modulo 256; every
permutation has the same checksum, so two bytes swapped are not detected; the checksum of a
concatenation is the sum of the checksums modulo 256; sequences whose sums agree modulo 256 have the
same checksum. (The spec marks the clauses after the first as its own inferences from it.)
(40_primitives.md R91) -/
def Obligations.ChecksumLaws : Prop :=
  (∀ b : List Byte, (checksum b).toNat = (b.map BitVec.toNat).sum % 256) ∧
  (∀ a b : List Byte, a.Perm b → checksum a = checksum b) ∧
  (∀ b : List Byte, checksum b = checksum b.reverse) ∧
  (∀ a b : List Byte, (checksum (a ++ b)).toNat = ((checksum a).toNat + (checksum b).toNat) % 256) ∧
  (∀ (u v w : List Byte) (a b : Byte),
    checksum (u ++ [a] ++ v ++ [b] ++ w) = checksum (u ++ [b] ++ v ++ [a] ++ w)) ∧
  (∀ a b : List Byte, (a.map BitVec.toNat).sum % 256 = (b.map BitVec.toNat).sum % 256 →
    checksum a = checksum b)

/-- cmd_of_byte gives GetVersion for 1, SoftReset for 2, SampleFreq for 3, and nothing exactly for
the other bytes. (R64) -/
def Obligations.CommandIdsAreClosed : Prop :=
  cmdOfByte 1#8 = some .getVersion ∧ cmdOfByte 2#8 = some .softReset ∧
  cmdOfByte 3#8 = some .sampleFreq ∧
  (∀ b : Byte, cmdOfByte b = none ↔ b ≠ 1#8 ∧ b ≠ 2#8 ∧ b ≠ 3#8) ∧
  (∀ c : CommandId, cmdOfByte (cmdByte c) = some c)

/-- Two bytes lo, hi assemble to lo + 256 * hi, which MemRead of two bytes of a buffer gives too;
the low and high byte of the field are lo and hi again; the two parameters of a sample frequency are
freq[7:0] and freq[15:8]. (30_encoding.md R66, 30_encoding.md R68, 20_memory.md R41, 00_scope.md R8) -/
def Obligations.FieldAssembly : Prop :=
  (∀ lo hi : Byte, (u16 lo hi).toNat = lo.toNat + 256 * hi.toNat) ∧
  (∀ lo hi : Byte, lowByte (u16 lo hi) = lo ∧ highByte (u16 lo hi) = hi) ∧
  (∀ v : Half, u16 (lowByte v) (highByte v) = v) ∧
  (∀ (m : Memory) (k : Nat) (lo hi : Byte), m.read k = some lo → m.read (k + 1) = some hi →
    m.memRead k 2 = some (u16 lo hi).toNat) ∧
  (∀ freq : Half, (freqParams freq).map BitVec.toNat = [freq.toNat % 256, freq.toNat / 256])

/-- For every raw temperature the 17-bit two-complement value of temp_q3 is raw - 2048, between
-2048 and 63487. (41_telemetry_decoder.md R107) -/
def Obligations.TemperatureIsExact : Prop :=
  ∀ raw : Half, (tempQ3 raw).toInt = (raw.toNat : Int) - 2048 ∧
    -2048 ≤ (tempQ3 raw).toInt ∧ (tempQ3 raw).toInt ≤ 63487

/-- For at most 251 parameters P: the frame has 4 + |P| bytes; it is 5A, the length byte, the id,
the parameters and then the checksum of all bytes before it; the length byte is the frame length.
(That it depends on id and P alone is its type.) (R120) -/
def Obligations.BuildCommandFrame : Prop :=
  ∀ (id : Byte) (P : List Byte), P.length ≤ 251 →
    (buildCommand id P).length = 4 + P.length ∧
    (∃ l : Byte, l.toNat = (buildCommand id P).length ∧
      buildCommand id P = [0x5A#8, l, id] ++ P ++ [checksum ([0x5A#8, l, id] ++ P)]) ∧
    (buildCommand id P).getLast? = some (checksum (buildCommand id P).dropLast)

/-! ## Steps and events -/

/-- If the pins of the next edge make event e, and e completes the encoded instruction w (a request
on the port, the last byte of a received frame, the last byte of the frame in t taken by the
transport) and w decodes to i, then the step is exec i on the state with that edge taken off the
inputs. (That one step is one edge taken from the inputs, and that a frame is run as an instruction
at the event of its last byte, are the choices of the model, log entries 1, 2 and 7.) (00_scope.md
R8, 60_exceptions.md R190, 30_encoding.md R72) -/
def Obligations.StepRunsTheDecodedInstruction : Prop :=
  ∀ (s : State) (p : Pins) (rest : List Pins) (e : Event) (w : Encoded) (i : Instr),
    s.inputs = p :: rest → portEvent p s.fsm = some e →
    completedFrame e { s with inputs := rest } = some w → decode w = .ok i →
    step s = exec i { s with inputs := rest }

/-- In every state that meets the invariant, a step whose edge makes event e answers what the
event-level step takeEvent e answers on the state without that edge, whether or not the event
completes an instruction; a step whose edge makes no event, or with no edge to come, changes no
register. (That one step is one edge, and that with no edge to come nothing changes, are the choices
of the model, log entries 1 and 2.) (00_scope.md R8, 60_exceptions.md R190, 10_state.md R16) -/
def Obligations.StepTakesTheEventOfTheEdge : Prop :=
  ∀ (s : State), Inv s →
    (s.inputs = [] → step s = .next s) ∧
    (∀ p rest, s.inputs = p :: rest →
      (∀ e, portEvent p s.fsm = some e → step s = takeEvent e { s with inputs := rest }) ∧
      (portEvent p s.fsm = none → step s = .next { s with inputs := rest }))

/-- Each of the seven events occurs at an edge exactly under the condition of rule R190, with
rx_ready, tx_valid and op_ready as the rule defines them; a step at an edge at which no event occurs
changes no register. (R190) -/
def Obligations.HandshakesMakeEvents : Prop :=
  (∀ (p : Pins) (f : Fsm),
    (portEvent p f = some .reset ↔ p.rst = true) ∧
    (portEvent p f = some .cancel ↔ p.cancel = true ∧ p.rst = false) ∧
    (portEvent p f = some .rxTimeout ↔ p.rxTimeout = true ∧
      f ∈ [Fsm.tSeek0, .tSeek1, .tRead, .rHdr, .rLen, .rPay, .rCsum] ∧ p.rst = false ∧ p.cancel = false) ∧
    (portEvent p f = some .txFail ↔
      p.txFail = true ∧ f = .cSend ∧ p.rst = false ∧ p.cancel = false) ∧
    (rxReady p f = true ↔ f ∈ [Fsm.tSeek0, .tSeek1, .tRead, .rHdr, .rLen, .rPay, .rCsum] ∧
      p.rst = false ∧ p.cancel = false ∧ p.rxTimeout = false) ∧
    (∀ b, portEvent p f = some (.rxByte b) ↔ p.rxValid = true ∧ rxReady p f = true ∧ b = p.rxData) ∧
    (txValid p f = true ↔ f = .cSend ∧ p.rst = false ∧ p.cancel = false ∧ p.txFail = false) ∧
    (portEvent p f = some .txAccept ↔ txValid p f = true ∧ p.txReady = true) ∧
    (opReady p f = true ↔ (f = .idle ∨ f = .dead) ∧ p.rst = false ∧ p.cancel = false) ∧
    (∀ r, portEvent p f = some (.hostReq r) ↔ p.opValid = true ∧ opReady p f = true ∧ r = p.req)) ∧
  (∀ (s : State) (p : Pins) (rest : List Pins), s.inputs = p :: rest → portEvent p s.fsm = none →
    step s = .next { s with inputs := rest })

/-- For each event, some activity of the pins makes it occur exactly in the controller states the
table marks; in IDLE and DEAD Cancel occurs and changes nothing; an event that is not enabled
changes nothing when the event-level step is applied to it. (R8 and R15 say that such an event
cannot occur; that the event-level step, offered one, leaves the state as it is, is the inference of
the model, log entry 3.) (10_state.md R15, 00_scope.md R8, 60_exceptions.md R190) -/
def Obligations.EnabledEventTable : Prop :=
  (∀ f : Fsm,
    (∃ p, portEvent p f = some .reset) ∧
    (∃ p, portEvent p f = some .cancel) ∧
    (∀ r, (∃ p, portEvent p f = some (.hostReq r)) ↔ f = .idle ∨ f = .dead) ∧
    (∀ b, (∃ p, portEvent p f = some (.rxByte b)) ↔
      f ∈ [Fsm.tSeek0, .tSeek1, .tRead, .rHdr, .rLen, .rPay, .rCsum]) ∧
    ((∃ p, portEvent p f = some .rxTimeout) ↔
      f ∈ [Fsm.tSeek0, .tSeek1, .tRead, .rHdr, .rLen, .rPay, .rCsum]) ∧
    ((∃ p, portEvent p f = some .txAccept) ↔ f = .cSend) ∧
    ((∃ p, portEvent p f = some .txFail) ↔ f = .cSend)) ∧
  (∀ s : State, s.fsm = .idle ∨ s.fsm = .dead → takeEvent .cancel s = .next s) ∧
  (∀ (s : State) (e : Event), (∀ p, portEvent p s.fsm ≠ some e) → takeEvent e s = .next s)

/-- A received frame (TLM_FRAME, the RSP rows) in a state that waits for no byte, a request frame
(the REQ rows) outside C_SEND, and a host operation (TLM, BUILD, SEND, RECV, SETFREQ, GETVER,
RESERVED_OP6, RESERVED_OP7) while the block is busy answer the same state; a host operation in DEAD
sets err to TransportError, err_corr to 0, emits ERROR(5, 0) and changes nothing else. (That an
event which is not enabled leaves the state as it is when offered to exec is the choice of the
model, log entry 3.) (10_state.md R15, 20_memory.md R45, 60_exceptions.md R185) -/
def Obligations.InstructionsOutsideTheirStates : Prop :=
  ∀ (i : Instr) (s : State),
    ((∃ f, encode i = .rx f) → s.fsm.receiving = false → exec i s = .next s) ∧
    ((∃ f, encode i = .tx f) → s.fsm ≠ .cSend → exec i s = .next s) ∧
    ((∃ r, encode i = .host r) → s.fsm.busy = true → exec i s = .next s) ∧
    ((∃ r, encode i = .host r) → s.fsm = .dead → exec i s = .next { s with
      err := .transportError, errCorr := false,
      out := s.out ++ [.res (.error .transportError false)] })

/-- Whenever the event-level step answers a next state, its fsm is the one the transition table of
rule R16 gives for the state and the event; an event that is not enabled leads nowhere. (R16 has no
row for such an event, which cannot occur; that the event-level step, offered one, stays where it
is, is the inference of the model, log entry 3.) (10_state.md R16, 10_state.md R15, 00_scope.md R8) -/
def Obligations.TransitionTable : Prop :=
  ∀ (s t : State) (e : Event), takeEvent e s = .next t → t.fsm = tableFsm s e

/-! ## Invariant -/

/-- The invariant (buffers in canonical form with every visible byte written, tx_idx and tx_len in
range, the frame in t a built one, the response and error and result registers consistent, and the
frame in progress what the controller state says) holds at reset. (10_state.md R26, 10_state.md R27,
70_reset_and_hazards.md R200) -/
def Obligations.InvariantAtReset : Prop :=
  Inv State.reset

/-- For every state s that meets the invariant, with any input pins to come: if step s answers next
t then t meets it. It says among others that acc is the checksum of the bytes received so far, that
x[0..cnt-1] and t[0..tx_len-1] hold values, that resp_valid means a validated frame in x, that a
running operation has no error recorded. (10_state.md R13, 10_state.md R18, 10_state.md R20,
10_state.md R22, 40_primitives.md R92, 41_telemetry_decoder.md R103) -/
def Obligations.InvariantKeptByEveryStep : Prop :=
  ∀ s t : State, Inv s → step s = .next t → Inv t

/-- In every state that meets the invariant a step neither faults nor is refused: no rule reads a
buffer byte before it is written, forms an index of 255 or more, or meets a combination the
transition table has no row for. (10_state.md R27, 10_state.md R16, 20_memory.md R40) -/
def Obligations.StepNeverStops : Prop :=
  ∀ s : State, Inv s → ∃ t, step s = .next t

/-! ## Reset, cancel, errors -/

/-- In any state, Reset leads to fsm IDLE, every register 0, no buffer byte holding a value; no
result event and no TX byte. (inputs, rxLog, out are the model streams and keep their values, and
that Reset keeps them is the choice of the model, log entries 1 and 4.) (70_reset_and_hazards.md
R200, 10_state.md R26) -/
def Obligations.ResetGivesResetValues : Prop :=
  ∀ s : State, takeEvent .reset s = .next
    { fsm := .idle, op := .tlm, reqId := 0#8, cnt := 0#8, len := 0#8, acc := 0#8, x := [], t := [],
      txLen := 0#8, txIdx := 0#8, dist := 0#16, strength := 0#16, tempRaw := 0#16, csumOk := false,
      tlmValid := false, respId := 0#8, respLen := 0#8, respValid := false, verPatch := 0#8,
      verMinor := 0#8, verMajor := 0#8, verValid := false, err := .none, errCorr := false,
      inputs := s.inputs, rxLog := s.rxLog, out := s.out }

/-- After Reset busy and dead are 0, op_ready is 1 at a quiet edge, no valid flag is set, err is 0,
no byte of x or t is visible to the host, and the only events that can occur are HostReq, Cancel (no
effect) and Reset. (The spec marks R201 as its own inference from R15 and R26.)
(70_reset_and_hazards.md R201, 10_state.md R15, 10_state.md R26) -/
def Obligations.AfterResetOnlyRequests : Prop :=
  ∀ s t : State, takeEvent .reset s = .next t →
    t.fsm.busy = false ∧ t.fsm.isDead = false ∧ opReady quietPins t.fsm = true ∧
    t.tlmValid = false ∧ t.respValid = false ∧ t.verValid = false ∧ t.err = .none ∧
    (∀ i, hostReadX t i = none ∧ hostReadT t i = none) ∧
    (∀ p e, portEvent p t.fsm = some e → e = .reset ∨ e = .cancel ∨ ∃ r, e = .hostReq r) ∧
    (∀ r, ∃ p, portEvent p t.fsm = some (.hostReq r)) ∧
    takeEvent .cancel t = .next t

/-- In IDLE and DEAD Cancel changes nothing. In every other state it sets cnt to 0, resp_valid to 0
and fsm to IDLE and changes nothing else: no result event, no TX byte, err unchanged. A telemetry
operation ends only by Cancel, by Reset or with an ERROR event. (R184, R110, R126, R143) -/
def Obligations.CancelEndsTheOperation : Prop :=
  (∀ s : State, s.fsm = .idle ∨ s.fsm = .dead → takeEvent .cancel s = .next s) ∧
  (∀ s : State, s.fsm ≠ .idle → s.fsm ≠ .dead →
    takeEvent .cancel s = .next { s with cnt := 0#8, respValid := false, fsm := .idle }) ∧
  (∀ (s t : State) (e : Event), s.fsm ∈ [Fsm.tSeek0, .tSeek1, .tRead] → takeEvent e s = .next t →
    t.fsm ∉ [Fsm.tSeek0, .tSeek1, .tRead] →
    e = .cancel ∨ e = .reset ∨ ∃ c k, t.out = s.out ++ [.res (.error c k)])

/-- raise writes err and err_corr, clears cnt and resp_valid, emits ERROR with the code and the
correlation bit, and goes to DEAD for TransportError and to IDLE otherwise. Whenever an event taken
while an operation runs emits ERROR(c, k), the state after it is the one before it with exactly
these writes and that one output: c is an error other than BadRequest, k is 1 only for
UnknownCommand, every other register keeps its value, the RX bytes consumed are the byte of the
event and no byte after it, and x is as before but for the byte x[cnt] that the last byte of a
response stores, which cnt = 0 hides. (R180) -/
def Obligations.RaiseWritesExactlyThis : Prop :=
  (∀ (e : ErrCode) (corr : Bool) (s : State),
    raiseError e corr s = { s with
      err := e, errCorr := corr, cnt := 0#8, respValid := false,
      fsm := if e = .transportError then .dead else .idle,
      out := s.out ++ [.res (.error e corr)] }) ∧
  (∀ (s t : State) (e : Event) (c : ErrCode) (k : Bool), takeEvent e s = .next t →
    s.fsm.busy = true → t.results = s.results ++ [.error c k] →
    c ≠ .none ∧ c ≠ .badRequest ∧ (k = true → c = .unknownCommand) ∧
    (t.x = s.x ∨ (s.fsm = .rCsum ∧ ∃ b, e = .rxByte b ∧ holdsByte t.x s.cnt.toNat b s.x)) ∧
    t = { s with
      err := c, errCorr := k, cnt := 0#8, respValid := false,
      fsm := if c = .transportError then .dead else .idle,
      x := t.x, rxLog := s.rxLog ++ (match e with | .rxByte b => [b] | _ => []),
      out := s.out ++ [.res (.error c k)] })

/-- In each of the seven states that wait for a byte, RxTimeout records SerialTimeout with corr 0,
hides the partial frame, clears resp_valid, emits ERROR(4, 0) and goes to IDLE, whatever op is;
nothing else changes. (R109, R142) -/
def Obligations.TimeoutRaisesSerialTimeout : Prop :=
  ∀ s : State, s.fsm ∈ [Fsm.tSeek0, .tSeek1, .tRead, .rHdr, .rLen, .rPay, .rCsum] →
    takeEvent .rxTimeout s = .next { s with
      err := .serialTimeout, errCorr := false, cnt := 0#8, respValid := false, fsm := .idle,
      out := s.out ++ [.res (.error .serialTimeout false)] }

/-- In C_SEND, whatever op is, TxFail records TransportError, clears cnt and resp_valid, emits
ERROR(5, 0) and goes to DEAD; t, tx_len, tx_idx and everything else keep their values and no byte is
sent. (R125) -/
def Obligations.WriteFailureEndsTheSession : Prop :=
  ∀ s : State, s.fsm = .cSend →
    takeEvent .txFail s = .next { s with
      err := .transportError, errCorr := false, cnt := 0#8, respValid := false, fsm := .dead,
      out := s.out ++ [.res (.error .transportError false)] }

/-- In DEAD every host request, well-formed or not, sets err to TransportError and err_corr to 0,
emits ERROR(5, 0) and changes nothing else; Cancel does nothing; no RX byte is consumed, no TX byte
is offered; no event but Reset leads to another controller state. (R8 and R15 say that RxByte and
TxAccept cannot occur in DEAD; that the event-level step, offered an event that is not enabled,
leaves the state as it is, is the inference of the model, log entry 3.) (60_exceptions.md R185,
10_state.md R15, 00_scope.md R8) -/
def Obligations.DeadRefusesEveryRequest : Prop :=
  ∀ s : State, s.fsm = .dead →
    (∀ r, takeEvent (.hostReq r) s = .next { s with
      err := .transportError, errCorr := false,
      out := s.out ++ [.res (.error .transportError false)] }) ∧
    takeEvent .cancel s = .next s ∧
    (∀ p, rxReady p s.fsm = false ∧ txValid p s.fsm = false) ∧
    (∀ b, takeEvent (.rxByte b) s = .next s) ∧ takeEvent .txAccept s = .next s ∧
    (∀ e t, takeEvent e s = .next t → e ≠ .reset → t.fsm = .dead) ∧
    (∀ t, takeEvent .reset s = .next t → t.fsm = .idle)

/-! ## Telemetry -/

/-- In IDLE, TLM sets op to 0, clears err, err_corr, cnt, resp_valid and goes to T_SEEK0; RECV sets
op to 3, clears the same and goes to R_HDR. Nothing else changes and nothing is emitted. From
T_SEEK0 on a received byte leads from one of the three telemetry states to one of them. (R100, R135) -/
def Obligations.TlmAndRecvAccepted : Prop :=
  (∀ s : State, s.fsm = .idle →
    exec .tlm s = .next { s with
      op := .tlm, err := .none, errCorr := false, cnt := 0#8, respValid := false, fsm := .tSeek0 } ∧
    exec .recv s = .next { s with
      op := .recv, err := .none, errCorr := false, cnt := 0#8, respValid := false, fsm := .rHdr }) ∧
  (∀ (s t : State) (b : Byte), s.fsm ∈ [Fsm.tSeek0, .tSeek1, .tRead] →
    takeEvent (.rxByte b) s = .next t → t.fsm ∈ [Fsm.tSeek0, .tSeek1, .tRead])

/-- In T_SEEK0 a received 59 is stored in x[0], cnt becomes 1 and fsm T_SEEK1; any other byte is
consumed and changes no register. No result event in either branch. (R101) -/
def Obligations.SeekingTheFirstHeaderByte : Prop :=
  ∀ s : State, s.fsm = .tSeek0 →
    (∃ m, takeEvent (.rxByte 0x59#8) s = .next { s with
        x := m, cnt := 1#8, fsm := .tSeek1, rxLog := s.rxLog ++ [0x59#8] } ∧
      holdsByte m 0 0x59#8 s.x) ∧
    (∀ b : Byte, b ≠ 0x59#8 →
      takeEvent (.rxByte b) s = .next { s with rxLog := s.rxLog ++ [b] })

/-- In T_SEEK1 a received 59 is stored in x[1], cnt becomes 2, acc B2 and fsm T_READ, with no result
event; any other byte emits TLM_HDR_INVALID, clears cnt and goes to T_SEEK0, err unchanged, and that
is what examining the byte as a first header byte would do (the spec marks that last clause as its
own inference). (41_telemetry_decoder.md R102, 41_telemetry_decoder.md R104) -/
def Obligations.SeekingTheSecondHeaderByte : Prop :=
  ∀ s : State, s.fsm = .tSeek1 →
    (∃ m, takeEvent (.rxByte 0x59#8) s = .next { s with
        x := m, cnt := 2#8, acc := 0xB2#8, fsm := .tRead, rxLog := s.rxLog ++ [0x59#8] } ∧
      holdsByte m 1 0x59#8 s.x) ∧
    (∀ b : Byte, b ≠ 0x59#8 →
      takeEvent (.rxByte b) s = .next { s with
        cnt := 0#8, fsm := .tSeek0, rxLog := s.rxLog ++ [b],
        out := s.out ++ [.res .tlmHdrInvalid] } ∧
      takeEvent (.rxByte b) s = takeEvent (.rxByte b)
        { s with cnt := 0#8, fsm := .tSeek0, out := s.out ++ [.res .tlmHdrInvalid] })

/-- In T_READ with 2 <= cnt <= 7 a received byte is stored in x[cnt], added to acc, cnt goes up by
one, and nothing else changes. (R105) -/
def Obligations.ReadingABodyByte : Prop :=
  ∀ (s : State) (b : Byte), s.fsm = .tRead → 2 ≤ s.cnt.toNat → s.cnt.toNat < 8 →
    ∃ m, takeEvent (.rxByte b) s = .next { s with
        x := m, acc := s.acc + b, cnt := s.cnt + 1#8, rxLog := s.rxLog ++ [b] } ∧
      holdsByte m s.cnt.toNat b s.x

/-- In T_READ with cnt = 8 and x[2..7] holding d0 d1 s0 s1 t0 t1, a received byte b is stored in
x[8]; dist, strength, temp_raw become the little-endian fields, csum_ok whether acc = b, tlm_valid
1; TLM_FRAME with these is emitted; cnt becomes 0 and fsm T_SEEK0; acc, err and everything else keep
their values. (R106) -/
def Obligations.NinthByteReportsTheFrame : Prop :=
  ∀ (s : State) (b d0 d1 s0 s1 t0 t1 : Byte), s.fsm = .tRead → s.cnt = 8#8 →
    s.x.readBytes 2 6 = some [d0, d1, s0, s1, t0, t1] →
    ∃ m, takeEvent (.rxByte b) s = .next { s with
        x := m, dist := d1 ++ d0, strength := s1 ++ s0, tempRaw := t1 ++ t0,
        csumOk := decide (s.acc = b), tlmValid := true, cnt := 0#8, fsm := .tSeek0,
        rxLog := s.rxLog ++ [b],
        out := s.out ++ [.res (.tlmFrame (d1 ++ d0) (s1 ++ s0) (t1 ++ t0) (decide (s.acc = b)))] } ∧
      holdsByte m 8 b s.x

/-- In T_SEEK0 with cnt 0, the instruction TLM_FRAME with any fields and any checksum byte answers
the next state in which its nine bytes have been consumed and stored in x[0..8], the three result
registers hold its fields, csum_ok says whether its checksum byte is the checksum of its first eight
bytes, TLM_FRAME with these is emitted, and fsm is T_SEEK0 with cnt 0; everything else keeps its
value. (That one exec of a frame takes the RxByte events of all its bytes is the choice of the
model, log entry 7; each of them is one edge.) (41_telemetry_decoder.md R101,
41_telemetry_decoder.md R102, 41_telemetry_decoder.md R105, 41_telemetry_decoder.md R106,
41_telemetry_decoder.md R108) -/
def Obligations.TelemetryFrameDecoded : Prop :=
  ∀ (s : State) (distance strength temp : Half) (csum : Byte), s.fsm = .tSeek0 → s.cnt = 0#8 →
    ∃ m, exec (.tlmFrame distance strength temp csum) s = .next { s with
        x := m, acc := checksum ((encodeTelemetry distance strength temp csum).take 8),
        dist := distance, strength := strength, tempRaw := temp,
        csumOk := decide (checksum ((encodeTelemetry distance strength temp csum).take 8) = csum),
        tlmValid := true,
        rxLog := s.rxLog ++ encodeTelemetry distance strength temp csum,
        out := s.out ++ [.res (.tlmFrame distance strength temp
          (decide (checksum ((encodeTelemetry distance strength temp csum).take 8) = csum)))] } ∧
      holdsFrame m (encodeTelemetry distance strength temp csum) s.x

/-- From IDLE: TLM, then any bytes g that hold no two consecutive 59 and do not end in 59, then a
telemetry frame, give one TLM_HDR_INVALID for each 59 in g and then exactly one TLM_FRAME with the
fields of the frame and its checksum match. (The frame has six body bytes and a checksum byte, as
R61 and R106 say; the count of seven in R111 is read as including the checksum byte, log entry 20.)
(41_telemetry_decoder.md R101, 41_telemetry_decoder.md R104, 41_telemetry_decoder.md R106,
41_telemetry_decoder.md R111) -/
def Obligations.ResynchronisationAfterGarbage : Prop :=
  ∀ (s : State) (r : HostReq) (g : List Byte) (distance strength temp : Half) (csum : Byte),
    s.fsm = .idle → r.opSel = 0#3 →
    (∀ u v : List Byte, g ≠ u ++ [0x59#8, 0x59#8] ++ v) → g.getLast? ≠ some 0x59#8 →
    ∃ t, takeEvents ([.hostReq r] ++
          (g ++ encodeTelemetry distance strength temp csum).map .rxByte) s = .next t ∧
      t.fsm = .tSeek0 ∧ t.cnt = 0#8 ∧ t.err = .none ∧
      t.dist = distance ∧ t.strength = strength ∧ t.tempRaw = temp ∧
      t.out = s.out ++ List.replicate (g.count 0x59#8) (.res .tlmHdrInvalid) ++
        [.res (.tlmFrame distance strength temp
          (decide (checksum ((encodeTelemetry distance strength temp csum).take 8) = csum)))]

/-! ## Building and sending -/

/-- In IDLE, BUILD with a known id and plen <= 251 writes op 1, err and err_corr 0, the frame
build_command gives into t, tx_len its length, tx_idx 0, emits BUILD_DONE, and changes nothing else:
it stays in IDLE, and x, cnt, resp_valid and the bytes of t behind the frame keep their values.
Otherwise err becomes BadRequest, ERROR(7, 0) is emitted, and nothing else changes. (R121) -/
def Obligations.BuildAccepted : Prop :=
  ∀ (s : State) (cmd plen : Byte) (params : List Byte), s.fsm = .idle →
    ((cmdOfByte cmd).isSome = true ∧ plen.toNat ≤ 251 → ∃ m,
      exec (.build cmd plen params) s = .next { s with
        op := .build, err := .none, errCorr := false, t := m,
        txLen := BitVec.ofNat 8 (buildCommand cmd (params.take plen.toNat)).length, txIdx := 0#8,
        out := s.out ++ [.res .buildDone] } ∧
      holdsFrame m (buildCommand cmd (params.take plen.toNat)) s.t) ∧
    (cmdOfByte cmd = none ∨ 251 < plen.toNat →
      exec (.build cmd plen params) s = .next { s with
        err := .badRequest, errCorr := false, out := s.out ++ [.res (.error .badRequest false)] })

/-- In IDLE, SEND with a known id and plen <= 251 writes op 2, err and err_corr 0, the frame
build_command gives into t, tx_len, tx_idx 0, goes to C_SEND and changes nothing else: nothing is
emitted or transmitted, req_id, x, cnt and resp_valid keep their values. Otherwise err becomes
BadRequest, ERROR(7, 0) is emitted, and nothing else changes. (R122) -/
def Obligations.SendAccepted : Prop :=
  ∀ (s : State) (cmd plen : Byte) (params : List Byte), s.fsm = .idle →
    ((cmdOfByte cmd).isSome = true ∧ plen.toNat ≤ 251 → ∃ m,
      exec (.send cmd plen params) s = .next { s with
        op := .send, err := .none, errCorr := false, t := m,
        txLen := BitVec.ofNat 8 (buildCommand cmd (params.take plen.toNat)).length, txIdx := 0#8,
        fsm := .cSend } ∧
      holdsFrame m (buildCommand cmd (params.take plen.toNat)) s.t) ∧
    (cmdOfByte cmd = none ∨ 251 < plen.toNat →
      exec (.send cmd plen params) s = .next { s with
        err := .badRequest, errCorr := false, out := s.out ++ [.res (.error .badRequest false)] })

/-- In IDLE the reserved codes 6 and 7 (RESERVED_OP6, RESERVED_OP7), and BUILD and SEND with an
unknown id or more than 251 parameters, set err to BadRequest and err_corr to 0 and emit ERROR(7,
0); fsm and every other register keep their values. (R178) -/
def Obligations.BadRequestIsRefused : Prop :=
  ∀ s : State, s.fsm = .idle →
    exec .reservedOp6 s = .next { s with
      err := .badRequest, errCorr := false, out := s.out ++ [.res (.error .badRequest false)] } ∧
    exec .reservedOp7 s = .next { s with
      err := .badRequest, errCorr := false, out := s.out ++ [.res (.error .badRequest false)] } ∧
    (∀ (cmd plen : Byte) (params : List Byte), cmdOfByte cmd = none ∨ 251 < plen.toNat →
      exec (.build cmd plen params) s = .next { s with
        err := .badRequest, errCorr := false, out := s.out ++ [.res (.error .badRequest false)] } ∧
      exec (.send cmd plen params) s = .next { s with
        err := .badRequest, errCorr := false, out := s.out ++ [.res (.error .badRequest false)] })

/-- In C_SEND with t[tx_idx] = b: if tx_idx + 1 < tx_len the byte b is appended to the TX stream and
tx_idx goes up by one; if tx_idx + 1 = tx_len the same happens and SEND emits SEND_DONE and goes to
IDLE, SETFREQ and GETVER go to R_HDR with no result event. Nothing else changes. (R123, R124, R158) -/
def Obligations.HandingOverOneByte : Prop :=
  ∀ (s : State) (b : Byte), s.fsm = .cSend → s.txIdx.toNat < 255 → s.t.read s.txIdx.toNat = some b →
    (s.txIdx.toNat + 1 < s.txLen.toNat →
      takeEvent .txAccept s = .next { s with txIdx := s.txIdx + 1#8, out := s.out ++ [.tx b] }) ∧
    (s.txIdx.toNat + 1 = s.txLen.toNat → s.op = .send →
      takeEvent .txAccept s = .next { s with
        txIdx := s.txLen, fsm := .idle, out := s.out ++ [.tx b, .res .sendDone] }) ∧
    (s.txIdx.toNat + 1 = s.txLen.toNat → s.op = .setfreq ∨ s.op = .getver →
      takeEvent .txAccept s = .next { s with
        txIdx := s.txLen, fsm := .rHdr, out := s.out ++ [.tx b] })

/-- In C_SEND with op SEND, SETFREQ or GETVER, tx_idx < tx_len and the frame of the instruction in
t[0..tx_len-1], each of REQ_GETVERSION, REQ_SOFTRESET, REQ_SAMPLEFREQ, REQ_GENERIC answers the next
state in which the bytes from tx_idx on have been appended to the TX stream in order, tx_idx is
tx_len, and SEND has emitted SEND_DONE and is in IDLE, SETFREQ and GETVER are in R_HDR; everything
else keeps its value. (That one exec of a request frame takes one TxAccept event for each byte still
to come, if the frame is the one in t, is the choice of the model, log entry 7; each of them is one
edge.) (42_command_encode_send.md R123, 42_command_encode_send.md R124, 44_highlevel_ops.md R158,
20_memory.md R49, 40_primitives.md R95) -/
def Obligations.RequestFrameIsTransmitted : Prop :=
  ∀ (s : State) (id : Byte) (params : List Byte) (csum : Byte) (i : Instr),
    i ∈ requestRows id params csum → s.fsm = .cSend →
    s.op = .send ∨ s.op = .setfreq ∨ s.op = .getver →
    s.txIdx.toNat < s.txLen.toNat → s.visibleT = some (encodeRequest id params csum) →
    exec i s = .next { s with
      txIdx := s.txLen, fsm := if s.op = .send then .idle else .rHdr,
      out := s.out ++ ((encodeRequest id params csum).drop s.txIdx.toNat).map .tx ++
        (if s.op = .send then [.res .sendDone] else []) }

/-! ## Receiving a response -/

/-- In R_HDR a received 5A is stored in x[0], cnt becomes 1, acc 5A, fsm R_LEN. Any other byte is
consumed, x is not written, and InvalidHeader is raised. After that no byte behind it is consumed.
(R136) -/
def Obligations.ResponseHeaderByte : Prop :=
  ∀ s : State, s.fsm = .rHdr →
    (∃ m, takeEvent (.rxByte 0x5A#8) s = .next { s with
        x := m, cnt := 1#8, acc := 0x5A#8, fsm := .rLen, rxLog := s.rxLog ++ [0x5A#8] } ∧
      holdsByte m 0 0x5A#8 s.x) ∧
    (∀ b : Byte, b ≠ 0x5A#8 →
      takeEvent (.rxByte b) s = .next { s with
        err := .invalidHeader, errCorr := false, cnt := 0#8, respValid := false, fsm := .idle,
        rxLog := s.rxLog ++ [b], out := s.out ++ [.res (.error .invalidHeader false)] } ∧
      ∀ more, takeRxBytes (b :: more) s = takeRxBytes [b] s)

/-- In R_LEN a received byte of at least 4 is stored in x[1] and in len, added to acc, cnt becomes
2, fsm R_PAY. A smaller one is consumed and InvalidLength is raised. (R137) -/
def Obligations.ResponseLengthByte : Prop :=
  ∀ (s : State) (b : Byte), s.fsm = .rLen →
    (4 ≤ b.toNat → ∃ m, takeEvent (.rxByte b) s = .next { s with
        x := m, cnt := 2#8, len := b, acc := s.acc + b, fsm := .rPay, rxLog := s.rxLog ++ [b] } ∧
      holdsByte m 1 b s.x) ∧
    (b.toNat < 4 → takeEvent (.rxByte b) s = .next { s with
        err := .invalidLength, errCorr := false, cnt := 0#8, respValid := false, fsm := .idle,
        rxLog := s.rxLog ++ [b], out := s.out ++ [.res (.error .invalidLength false)] })

/-- In R_PAY with 2 <= cnt <= len - 2 a received byte is stored in x[cnt] and added to acc, cnt goes
up by one, and fsm becomes R_CSUM exactly if cnt was len - 2; nothing else changes, whatever the
byte is. (R138) -/
def Obligations.ResponsePayloadByte : Prop :=
  ∀ (s : State) (b : Byte), s.fsm = .rPay → 2 ≤ s.cnt.toNat → s.cnt.toNat + 2 ≤ s.len.toNat →
    ∃ m, takeEvent (.rxByte b) s = .next { s with
        x := m, acc := s.acc + b, cnt := s.cnt + 1#8,
        fsm := if s.cnt.toNat + 2 = s.len.toNat then .rCsum else .rPay, rxLog := s.rxLog ++ [b] } ∧
      holdsByte m s.cnt.toNat b s.x

/-- In R_CSUM with cnt = len - 1 and x[2] = id, a received byte b is stored in x[len - 1], and: an
id outside the enumeration raises UnknownCommand with corr 0 whether or not the checksum is right; a
known id with acc different from b raises InvalidChecksum; otherwise cnt becomes len and the
operation finishes. acc and len keep their values. (R139, R140) -/
def Obligations.ResponseVerdict : Prop :=
  ∀ (s : State) (b id : Byte), s.fsm = .rCsum → s.cnt.toNat + 1 = s.len.toNat →
    s.x.read 2 = some id → ∃ m, holdsByte m s.cnt.toNat b s.x ∧
    (cmdOfByte id = none →
      takeEvent (.rxByte b) s = .next { s with
        x := m, err := .unknownCommand, errCorr := false, cnt := 0#8, respValid := false, fsm := .idle,
        rxLog := s.rxLog ++ [b], out := s.out ++ [.res (.error .unknownCommand false)] }) ∧
    (cmdOfByte id ≠ none → s.acc ≠ b →
      takeEvent (.rxByte b) s = .next { s with
        x := m, err := .invalidChecksum, errCorr := false, cnt := 0#8, respValid := false, fsm := .idle,
        rxLog := s.rxLog ++ [b], out := s.out ++ [.res (.error .invalidChecksum false)] }) ∧
    (cmdOfByte id ≠ none → s.acc = b →
      takeEvent (.rxByte b) s =
        finishResponse id { s with x := m, cnt := s.len, rxLog := s.rxLog ++ [b] })

/-- In R_CSUM with op RECV, cnt = len - 1, x[2] = id a known id and x[3..len-2] holding data, a
checksum byte equal to acc is stored in x[len-1], cnt becomes len, resp_id the id, resp_len len - 4,
resp_valid 1, RECV_DONE(id, data) is emitted and fsm is IDLE; nothing else changes. (R141) -/
def Obligations.RecvSucceeds : Prop :=
  ∀ (s : State) (b id : Byte) (data : List Byte), s.fsm = .rCsum → s.op = .recv →
    s.cnt.toNat + 1 = s.len.toNat → s.x.read 2 = some id → (cmdOfByte id).isSome = true → s.acc = b →
    s.x.readBytes 3 (s.len.toNat - 4) = some data →
    ∃ m, takeEvent (.rxByte b) s = .next { s with
        x := m, cnt := s.len, respId := id, respLen := s.len - 4#8, respValid := true, fsm := .idle,
        rxLog := s.rxLog ++ [b], out := s.out ++ [.res (.recvDone id data)] } ∧
      holdsByte m s.cnt.toNat b s.x

/-- In R_CSUM with cnt = len - 1, x[2] = id a known id and a received byte b equal to acc, b is
stored in x[len-1], and: with op SETFREQ or GETVER, an id other than req_id raises UnknownCommand
with corr 1 before any result. With the same id SETFREQ sets cnt to len, resp_id to id, resp_len to
len - 4, resp_valid, emits FREQ_DONE and goes to IDLE, whatever the data are; GETVER with len - 4 <
3 raises InvalidLength with corr 0, and otherwise, with x[3], x[4], x[5] = patch, minor, major,
records them, sets ver_valid, writes cnt, resp_id, resp_len, resp_valid as SETFREQ does, emits
VER_DONE(patch, minor, major) and goes to IDLE. Nothing else changes. (R159, R160, R161) -/
def Obligations.HighLevelOperationsFinish : Prop :=
  ∀ (s : State) (b id : Byte), s.fsm = .rCsum → s.cnt.toNat + 1 = s.len.toNat →
    s.x.read 2 = some id → (cmdOfByte id).isSome = true → s.acc = b →
    ∃ m, holdsByte m s.cnt.toNat b s.x ∧
    (s.op = .setfreq ∨ s.op = .getver → id ≠ s.reqId →
      takeEvent (.rxByte b) s = .next { s with
        x := m, err := .unknownCommand, errCorr := true, cnt := 0#8, respValid := false, fsm := .idle,
        rxLog := s.rxLog ++ [b], out := s.out ++ [.res (.error .unknownCommand true)] }) ∧
    (s.op = .setfreq → id = s.reqId →
      takeEvent (.rxByte b) s = .next { s with
        x := m, cnt := s.len, respId := id, respLen := s.len - 4#8, respValid := true, fsm := .idle,
        rxLog := s.rxLog ++ [b], out := s.out ++ [.res .freqDone] }) ∧
    (s.op = .getver → id = s.reqId → s.len.toNat < 7 →
      takeEvent (.rxByte b) s = .next { s with
        x := m, err := .invalidLength, errCorr := false, cnt := 0#8, respValid := false, fsm := .idle,
        rxLog := s.rxLog ++ [b], out := s.out ++ [.res (.error .invalidLength false)] }) ∧
    (∀ patch minor major : Byte, s.op = .getver → id = s.reqId → 7 ≤ s.len.toNat →
      s.x.readBytes 3 3 = some [patch, minor, major] →
      takeEvent (.rxByte b) s = .next { s with
        x := m, cnt := s.len, verPatch := patch, verMinor := minor, verMajor := major, verValid := true,
        respId := id, respLen := s.len - 4#8, respValid := true, fsm := .idle,
        rxLog := s.rxLog ++ [b], out := s.out ++ [.res (.verDone patch minor major)] })

/-- In R_HDR with op RECV and cnt 0, each row a legal response frame belongs to (RSP_GENERIC, and
RSP_GETVERSION, RSP_SOFTRESET or RSP_SAMPLEFREQ by its id), with 0 to 251 data bytes and the right
checksum, answers the next state in which all its len bytes are consumed and stored in x[0..len-1],
cnt and len are its length, acc its checksum, resp_id, resp_len, resp_valid are recorded,
RECV_DONE(id, data) is emitted and fsm is IDLE; everything else keeps its value. (That one exec of a
frame takes the RxByte events of all its bytes is the choice of the model, log entry 7; each of them
is one edge.) (43_command_receive.md R136, 43_command_receive.md R137, 43_command_receive.md R138,
43_command_receive.md R139, 43_command_receive.md R141) -/
def Obligations.LegalResponseCompletesRecv : Prop :=
  ∀ (s : State) (len id : Byte) (data : List Byte) (i : Instr),
    i ∈ responseRows len id data (responseChecksum len id data) →
    responseFramed len data = true → (cmdOfByte id).isSome = true →
    s.fsm = .rHdr → s.op = .recv → s.cnt = 0#8 →
    ∃ m, exec i s = .next { s with
        x := m, cnt := len, len := len, acc := responseChecksum len id data,
        respId := id, respLen := len - 4#8, respValid := true, fsm := .idle,
        rxLog := s.rxLog ++ encodeResponse len id data (responseChecksum len id data),
        out := s.out ++ [.res (.recvDone id data)] } ∧
      holdsFrame m (encodeResponse len id data (responseChecksum len id data)) s.x

/-- In R_HDR with cnt 0 and whatever op is, a framed response row with an id outside the enumeration
ends in UnknownCommand with corr 0, and one with a known id and a wrong checksum in InvalidChecksum;
in both cases all len bytes are consumed, cnt and resp_valid are 0, fsm is IDLE, and everything but
x, len, acc and the error keeps its value. (That one exec of a frame takes the RxByte events of all
its bytes is the choice of the model, log entry 7; each of them is one edge.) (43_command_receive.md
R139, 43_command_receive.md R140, 43_command_receive.md R145, 60_exceptions.md R182) -/
def Obligations.BadResponseIsRejectedWhole : Prop :=
  ∀ (s : State) (len id : Byte) (data : List Byte) (csum : Byte) (i : Instr) (e : ErrCode),
    i ∈ responseRows len id data csum → responseFramed len data = true →
    (cmdOfByte id = none ∧ e = .unknownCommand ∨
      (cmdOfByte id).isSome = true ∧ csum ≠ responseChecksum len id data ∧ e = .invalidChecksum) →
    s.fsm = .rHdr → s.cnt = 0#8 →
    ∃ m, exec i s = .next { s with
        x := m, cnt := 0#8, len := len, acc := responseChecksum len id data, respValid := false,
        err := e, errCorr := false, fsm := .idle,
        rxLog := s.rxLog ++ encodeResponse len id data csum,
        out := s.out ++ [.res (.error e false)] } ∧
      holdsFrame m (encodeResponse len id data csum) s.x

/-- From IDLE: RECV, then the bytes of any sequence s for as long as the block asks for bytes, then
a timeout, end in IDLE with exactly one result: RECV_DONE(id, data) if parse_frame s is ok(id,
data), ERROR(e, 0) if it is error(e); and err records that error, or none. (R144 has the timeout
only if the operation is still running; that a timeout offered after its end changes nothing is the
inference of the model, log entry 3.) (43_command_receive.md R144, 43_command_receive.md R136,
43_command_receive.md R137, 43_command_receive.md R138, 43_command_receive.md R139,
43_command_receive.md R142) -/
def Obligations.ParserAgreesWithReceiver : Prop :=
  ∀ (s : State) (r : HostReq) (bytes : List Byte), s.fsm = .idle → r.opSel = 3#3 →
    ∃ t u v, takeEvent (.hostReq r) s = .next t ∧ takeRxBytes bytes t = .next u ∧
      takeEvent .rxTimeout u = .next v ∧ v.fsm = .idle ∧
      match parseFrame bytes with
      | .ok (id, data) => v.out = s.out ++ [.res (.recvDone id data)] ∧ v.err = .none ∧
          v.respValid = true
      | .error e => v.out = s.out ++ [.res (.error e false)] ∧ v.err = e ∧ v.respValid = false

/-- In R_HDR with cnt 0 and op RECV, being fed any byte sequence consumes its first byte for
InvalidHeader, its first two for InvalidLength, the len bytes of the frame for UnknownCommand,
InvalidChecksum and success, and all of it when it runs out first; no byte behind is consumed, in
order and for good. (43_command_receive.md R145, 20_memory.md R45, 20_memory.md R48) -/
def Obligations.ReceiverConsumesNoMore : Prop :=
  ∀ (s t : State) (bytes : List Byte), s.fsm = .rHdr → s.cnt = 0#8 → s.op = .recv →
    takeRxBytes bytes s = .next t →
    bytesConsumed bytes ≤ bytes.length ∧ t.rxLog = s.rxLog ++ bytes.take (bytesConsumed bytes)

/-! ## High-level operations and whole cycles -/

/-- In IDLE, SETFREQ with any freq writes op 4, req_id 3, t[0..5] = 5A 06 03 lo hi cs with cs the
checksum, tx_len 6, tx_idx 0, clears err, err_corr, cnt, resp_valid and goes to C_SEND; GETVER
writes op 5, req_id 1, t[0..3] = 5A 04 01 5F, tx_len 4, tx_idx 0, clears err, err_corr, cnt,
resp_valid, ver_valid and goes to C_SEND. Nothing else changes and nothing is emitted. (R156, R157) -/
def Obligations.SetfreqAndGetverAccepted : Prop :=
  ∀ s : State, s.fsm = .idle →
    (∀ freq : Half, ∃ m, exec (.setfreq freq) s = .next { s with
        op := .setfreq, reqId := 0x03#8, err := .none, errCorr := false, t := m, txLen := 6#8,
        txIdx := 0#8, cnt := 0#8, respValid := false, fsm := .cSend } ∧
      holdsFrame m [0x5A#8, 0x06#8, 0x03#8, freq.extractLsb' 0 8, freq.extractLsb' 8 8,
        0x63#8 + freq.extractLsb' 0 8 + freq.extractLsb' 8 8] s.t) ∧
    (∃ m, exec .getver s = .next { s with
        op := .getver, reqId := 0x01#8, err := .none, errCorr := false, t := m, txLen := 4#8,
        txIdx := 0#8, cnt := 0#8, respValid := false, verValid := false, fsm := .cSend } ∧
      holdsFrame m [0x5A#8, 0x04#8, 0x01#8, 0x5F#8] s.t)

/-- From IDLE: SETFREQ, six TxAccept, and any legal SampleFreq response, one byte an event, give the
TX bytes of the request in order and then FREQ_DONE and nothing else, end in IDLE with the response
readable in x and no error, and leave the telemetry and version registers as they were.
(44_highlevel_ops.md R155, 44_highlevel_ops.md R156, 44_highlevel_ops.md R158, 44_highlevel_ops.md
R160, 30_encoding.md R81) -/
def Obligations.SetfreqCycleSucceeds : Prop :=
  ∀ (s : State) (r : HostReq) (len : Byte) (data : List Byte), s.fsm = .idle → r.opSel = 4#3 →
    responseFramed len data = true →
    ∃ t, takeEvents ([.hostReq r] ++ List.replicate 6 .txAccept ++
          (encodeResponse len 0x03#8 data (responseChecksum len 0x03#8 data)).map .rxByte) s = .next t ∧
      t.out = s.out ++ (buildCommand 0x03#8 (freqParams r.freq)).map .tx ++ [.res .freqDone] ∧
      t.fsm = .idle ∧ t.op = .setfreq ∧ t.err = .none ∧ t.errCorr = false ∧ t.respValid = true ∧
      t.respId = 0x03#8 ∧ t.respLen = len - 4#8 ∧
      t.visibleX = some (encodeResponse len 0x03#8 data (responseChecksum len 0x03#8 data)) ∧
      t.visibleT = some (buildCommand 0x03#8 (freqParams r.freq)) ∧
      t.dist = s.dist ∧ t.strength = s.strength ∧ t.tempRaw = s.tempRaw ∧ t.csumOk = s.csumOk ∧
      t.tlmValid = s.tlmValid ∧ t.verPatch = s.verPatch ∧ t.verMinor = s.verMinor ∧
      t.verMajor = s.verMajor ∧ t.verValid = s.verValid

/-- From IDLE: GETVER, four TxAccept, and any legal GetVersion response with at least three data
bytes patch, minor, major give the TX bytes 5A 04 01 5F and then VER_DONE(patch, minor, major) and
nothing else, end in IDLE with the version registers set and no error, and leave the telemetry
registers as they were. (44_highlevel_ops.md R155, 44_highlevel_ops.md R157, 44_highlevel_ops.md
R158, 44_highlevel_ops.md R161, 30_encoding.md R81) -/
def Obligations.GetverCycleSucceeds : Prop :=
  ∀ (s : State) (r : HostReq) (len patch minor major : Byte) (extra : List Byte), s.fsm = .idle →
    r.opSel = 5#3 → responseFramed len ([patch, minor, major] ++ extra) = true →
    ∃ t, takeEvents ([.hostReq r] ++ List.replicate 4 .txAccept ++
          (encodeResponse len 0x01#8 ([patch, minor, major] ++ extra)
            (responseChecksum len 0x01#8 ([patch, minor, major] ++ extra))).map .rxByte) s = .next t ∧
      t.out = s.out ++ [.tx 0x5A#8, .tx 0x04#8, .tx 0x01#8, .tx 0x5F#8,
        .res (.verDone patch minor major)] ∧
      t.fsm = .idle ∧ t.op = .getver ∧ t.err = .none ∧ t.errCorr = false ∧ t.respValid = true ∧
      t.respId = 0x01#8 ∧ t.respLen = len - 4#8 ∧
      t.verPatch = patch ∧ t.verMinor = minor ∧ t.verMajor = major ∧ t.verValid = true ∧
      t.dist = s.dist ∧ t.strength = s.strength ∧ t.tempRaw = s.tempRaw ∧ t.csumOk = s.csumOk ∧
      t.tlmValid = s.tlmValid

/-- For every known id and at most 251 parameters P: parse_frame (build_command id P) is ok(id, P),
and the last byte of the built frame is the checksum of the others. In events: from IDLE, SEND of
any well-formed request puts exactly that frame on the TX stream and emits SEND_DONE, and a RECV fed
with the same bytes emits RECV_DONE(id, P), ending in IDLE with no error (the spec marks the event
form as its own inference). (42_command_encode_send.md R127, 42_command_encode_send.md R120,
43_command_receive.md R144) -/
def Obligations.RoundTripOfCommandFrames : Prop :=
  (∀ (id : Byte) (P : List Byte), (cmdOfByte id).isSome = true → P.length ≤ 251 →
    parseFrame (buildCommand id P) = .ok (id, P) ∧
    (buildCommand id P).getLast? = some (checksum (buildCommand id P).dropLast)) ∧
  (∀ (s : State) (r q : HostReq), s.fsm = .idle → r.opSel = 2#3 → q.opSel = 3#3 →
    (cmdOfByte r.cmd).isSome = true → r.plen.toNat ≤ 251 →
    ∃ t, takeEvents ([.hostReq r] ++
          List.replicate (4 + r.plen.toNat) .txAccept ++ [.hostReq q] ++
          (buildCommand r.cmd (r.params.toList.take r.plen.toNat)).map .rxByte) s = .next t ∧
      t.out = s.out ++ (buildCommand r.cmd (r.params.toList.take r.plen.toNat)).map .tx ++
        [.res .sendDone, .res (.recvDone r.cmd (r.params.toList.take r.plen.toNat))] ∧
      t.fsm = .idle ∧ t.err = .none)

/-- In every state of the invariant in which an operation other than TLM runs: any run of transport
events, each enabled when it is taken, that is at least as long as stepsLeft ends the operation,
within stepsLeft events, in IDLE or DEAD; and stepsLeft is at most tx_len + 255. (60_exceptions.md
R192, 70_reset_and_hazards.md R213, 70_reset_and_hazards.md R214) -/
def Obligations.CommandOperationsEnd : Prop :=
  ∀ (s : State) (es : List Event), Inv s → s.fsm.busy = true → s.op ≠ .tlm →
    (∀ e ∈ es, transportEvent e = true) → EnabledRun es s → stepsLeft s ≤ es.length →
    stepsLeft s ≤ s.txLen.toNat + 255 ∧
    ∃ n t, n ≤ stepsLeft s ∧ takeEvents (es.take n) s = .next t ∧ (t.fsm = .idle ∨ t.fsm = .dead)

/-! ## What changes which register: rules over all events -/

/-- Whenever an event other than Reset is taken: if it is a well-formed host request taken in IDLE,
op becomes the operation it selects, and req_id becomes 3 for SETFREQ, 1 for GETVER and is unchanged
for the others; in every other case op and req_id are unchanged. (R17) -/
def Obligations.RequestRegistersAreLatched : Prop :=
  ∀ (s t : State) (e : Event), takeEvent e s = .next t → e ≠ .reset →
    (∀ r, e = .hostReq r → s.fsm = .idle → requestWellFormed r →
      opNumber t.op = r.opSel ∧
      t.reqId = if r.opSel = 4#3 then 0x03#8 else if r.opSel = 5#3 then 0x01#8 else s.reqId) ∧
    ((∀ r, e = .hostReq r → s.fsm = .idle → ¬ requestWellFormed r) →
      t.op = s.op ∧ t.reqId = s.reqId)

/-- Whenever an event other than Reset is taken: if it is a well-formed BUILD, SEND, SETFREQ or
GETVER request r taken in IDLE, t holds from index 0 on the frame build_command gives for the id and
the parameters of r (plen of them; for SETFREQ id 3 and the two bytes of freq; for GETVER id 1 and
none), and behind it what it held before, tx_len is the length of that frame, at least 4, and tx_idx
is 0. In every other case, a TLM or RECV request and a refused one among them, t and tx_len keep
their values, and tx_idx does unless the event is TxAccept. (10_state.md R18, 20_memory.md R52,
42_command_encode_send.md R121, 42_command_encode_send.md R122, 44_highlevel_ops.md R156,
44_highlevel_ops.md R157) -/
def Obligations.TransmitBufferIsLatched : Prop :=
  ∀ (s t : State) (e : Event), takeEvent e s = .next t → e ≠ .reset →
    (∀ r f, e = .hostReq r → s.fsm = .idle → requestWellFormed r → requestedFrame r = some f →
      holdsFrame t.t f s.t ∧ t.txLen.toNat = f.length ∧ 4 ≤ f.length ∧ t.txIdx = 0#8) ∧
    ((∀ r, e = .hostReq r → s.fsm = .idle → requestWellFormed r → requestedFrame r = none) →
      t.t = s.t ∧ t.txLen = s.txLen ∧ (e ≠ .txAccept → t.txIdx = s.txIdx))

/-- Whenever an event other than RxByte and Reset is taken, x keeps its value. In a state of the
invariant a received byte b leaves every byte of x but x[cnt] as it was, and x[cnt] as it was or
equal to b. (10_state.md R12, 20_memory.md R40, 20_memory.md R45) -/
def Obligations.ReceiveBufferFrame : Prop :=
  (∀ (s t : State) (e : Event), takeEvent e s = .next t → e ≠ .reset → (∀ b, e ≠ .rxByte b) →
    t.x = s.x) ∧
  (∀ (s t : State) (b : Byte), Inv s → takeEvent (.rxByte b) s = .next t →
    (∀ a, a ≠ s.cnt.toNat → t.x.read a = s.x.read a) ∧
    (t.x.read s.cnt.toNat = s.x.read s.cnt.toNat ∨ t.x.read s.cnt.toNat = some b))

/-- Whenever an event other than Reset is taken: dist, strength, temp_raw, csum_ok and tlm_valid all
keep their values, or the event emitted TLM_FRAME with exactly the new values and tlm_valid is 1.
(10_state.md R19, 41_telemetry_decoder.md R106, 41_telemetry_decoder.md R109) -/
def Obligations.TelemetryRegistersAreWrittenTogether : Prop :=
  ∀ (s t : State) (e : Event), takeEvent e s = .next t → e ≠ .reset →
    (t.dist = s.dist ∧ t.strength = s.strength ∧ t.tempRaw = s.tempRaw ∧ t.csumOk = s.csumOk ∧
      t.tlmValid = s.tlmValid) ∨
    (s.fsm = .tRead ∧ s.cnt = 8#8 ∧ t.tlmValid = true ∧
      t.out = s.out ++ [.res (.tlmFrame t.dist t.strength t.tempRaw t.csumOk)])

/-- Whenever an event other than Reset is taken: either it is the last byte of a response that ends
RECV, SETFREQ or GETVER with RECV_DONE, FREQ_DONE or VER_DONE, which records resp_id, resp_len and
sets resp_valid; or resp_id and resp_len keep their values and resp_valid is cleared exactly by the
acceptance of TLM, RECV, SETFREQ or GETVER, by a hard error in an operation and by a Cancel of one,
and keeps its value otherwise. The version numbers change only with VER_DONE of a GETVER, which
carries them and sets ver_valid; the acceptance of GETVER clears ver_valid, and nothing else does.
(10_state.md R20, 10_state.md R21, 20_memory.md R53, 43_command_receive.md R141, 44_highlevel_ops.md
R157, 44_highlevel_ops.md R160, 44_highlevel_ops.md R161) -/
def Obligations.ResponseAndVersionRegisters : Prop :=
  ∀ (s t : State) (e : Event), takeEvent e s = .next t → e ≠ .reset →
    ((t.respId = s.respId ∧ t.respLen = s.respLen ∧
        (hidesResponse e s t → t.respValid = false) ∧
        (¬ hidesResponse e s t → t.respValid = s.respValid)) ∨
      (¬ hidesResponse e s t ∧ s.fsm = .rCsum ∧ (∃ b, e = .rxByte b) ∧ t.respValid = true ∧
        t.respLen = s.len - 4#8 ∧ s.x.read 2 = some t.respId ∧
        ∃ q, t.out = s.out ++ [.res q] ∧
          ((s.op = .setfreq ∧ q = .freqDone) ∨
            (s.op = .recv ∧ ∃ data, q = .recvDone t.respId data) ∨
            (s.op = .getver ∧ q = .verDone t.verPatch t.verMinor t.verMajor)))) ∧
    ((∃ r, e = .hostReq r ∧ s.fsm = .idle ∧ r.opSel = 5#3) → t.verValid = false) ∧
    ((t.verPatch = s.verPatch ∧ t.verMinor = s.verMinor ∧ t.verMajor = s.verMajor ∧
        ((¬ ∃ r, e = .hostReq r ∧ s.fsm = .idle ∧ r.opSel = 5#3) → t.verValid = s.verValid)) ∨
      (s.fsm = .rCsum ∧ s.op = .getver ∧ (∃ b, e = .rxByte b) ∧ t.verValid = true ∧
        t.out = s.out ++ [.res (.verDone t.verPatch t.verMinor t.verMajor)]))

/-- Whenever an event is taken: Reset and a well-formed host request in IDLE clear err and err_corr;
Cancel keeps them; after any other event they are as before, with no result ERROR emitted, or hold
the code and the correlation bit of the ERROR event just emitted. The correlation bit comes up only
with UnknownCommand, at the last byte of a response to SETFREQ or GETVER whose id is not req_id.
(R22) -/
def Obligations.ErrorRegistersFollowTheEvents : Prop :=
  ∀ (s t : State) (e : Event), takeEvent e s = .next t →
    (e = .reset ∨ (s.fsm = .idle ∧ ∃ r, e = .hostReq r ∧ requestWellFormed r) →
      t.err = .none ∧ t.errCorr = false) ∧
    (e = .cancel → t.err = s.err ∧ t.errCorr = s.errCorr) ∧
    (e ≠ .reset → ¬ (s.fsm = .idle ∧ ∃ r, e = .hostReq r ∧ requestWellFormed r) →
      (t.err = s.err ∧ t.errCorr = s.errCorr ∧ ∀ c k, t.results ≠ s.results ++ [.error c k]) ∨
      t.out = s.out ++ [.res (.error t.err t.errCorr)]) ∧
    (t.errCorr = true → (s.errCorr = true ∧ t.err = s.err) ∨
      (t.err = .unknownCommand ∧ s.fsm = .rCsum ∧ (s.op = .setfreq ∨ s.op = .getver) ∧
        s.x.read 2 ≠ some s.reqId))

/-- Whenever an event is taken: the consumed RX bytes grow by exactly b for RxByte(b) in a state
that waits for a byte and otherwise stay; the TX stream grows by exactly t[tx_idx] for TxAccept in
C_SEND and otherwise stays; the outputs only grow, by at most one result event. (The logs rxLog and
out are the model's, and that Reset keeps them is its choice, log entry 4; that RxByte and TxAccept
change nothing where they are not enabled is its inference, log entry 3.) (20_memory.md R45,
20_memory.md R48, 20_memory.md R49) -/
def Obligations.StreamsMoveOneByteAtATime : Prop :=
  ∀ (s t : State) (e : Event), takeEvent e s = .next t →
    (∀ b, e = .rxByte b → s.fsm.receiving = true → t.rxLog = s.rxLog ++ [b]) ∧
    ((∀ b, e ≠ .rxByte b) ∨ s.fsm.receiving = false → t.rxLog = s.rxLog) ∧
    (e = .txAccept → s.fsm = .cSend →
      ∃ b, s.t.read s.txIdx.toNat = some b ∧ t.txStream = s.txStream ++ [b] ∧
        t.txIdx = s.txIdx + 1#8) ∧
    (e ≠ .txAccept ∨ s.fsm ≠ .cSend → t.txStream = s.txStream) ∧
    (∃ os, t.out = s.out ++ os ∧ os.length ≤ 2) ∧
    (t.results = s.results ∨ ∃ q, t.results = s.results ++ [q])

/-- Whenever an event leads from a busy state to IDLE or DEAD: if it is Cancel or Reset nothing is
emitted; otherwise exactly one result event is emitted, which is neither TLM_FRAME nor
TLM_HDR_INVALID. (70_reset_and_hazards.md R213, 60_exceptions.md R184, 70_reset_and_hazards.md R200) -/
def Obligations.OperationEndsWithOneResult : Prop :=
  ∀ (s t : State) (e : Event), takeEvent e s = .next t → s.fsm.busy = true → t.fsm.busy = false →
    (e = .cancel ∨ e = .reset → t.out = s.out) ∧
    (e ≠ .cancel → e ≠ .reset → ∃ q, t.results = s.results ++ [q] ∧
      q ≠ .tlmHdrInvalid ∧ ∀ d st r ok, q ≠ .tlmFrame d st r ok)

/-- In every state of the invariant: while busy no read of x or t is answered; while not busy, x[i]
is answered exactly for i < cnt and t[i] exactly for i < tx_len; after any hard error and after a
Cancel that ends an operation no byte of x is visible. (10_state.md R24, 10_state.md R27,
10_state.md R28, 60_exceptions.md R191) -/
def Obligations.HostReadsOnlyVisibleBytes : Prop :=
  (∀ (s : State) (i : Nat), Inv s →
    (s.fsm.busy = true → hostReadX s i = none ∧ hostReadT s i = none) ∧
    (s.fsm.busy = false →
      ((hostReadX s i).isSome = true ↔ i < s.cnt.toNat) ∧
      ((hostReadT s i).isSome = true ↔ i < s.txLen.toNat))) ∧
  (∀ (e : ErrCode) (corr : Bool) (s : State) (i : Nat), hostReadX (raiseError e corr s) i = none) ∧
  (∀ (s : State) (i : Nat), s.fsm.busy = true → hostReadX (cancelOperation s) i = none)
end

