-- ==== Sys2Proof/Laws/Memory.lean ====
section
/-! SUPPORT. Laws/Memory.lean: reading after writing, one byte and many, and that every memory
operation keeps the canonical form. -/

namespace Sys2Proof.Machine

theorem Memory.read_write_same (m : Memory) (i : Nat) (b : Byte) :
    (m.write i b).read i = some b := by
  induction m with
  | nil => simp [Memory.write, Memory.read]
  | cons c m ih =>
    obtain ⟨j, c⟩ := c
    by_cases h1 : i < j
    · simp [Memory.write, Memory.read, h1]
    · by_cases h2 : i = j
      · simp [Memory.write, Memory.read, h2]
      · simp [Memory.write, Memory.read, h1, h2, ih]

theorem Memory.read_write_other (m : Memory) {i k : Nat} (b : Byte) (h : k ≠ i) :
    (m.write i b).read k = m.read k := by
  induction m with
  | nil => simp [Memory.write, Memory.read, h]
  | cons c m ih =>
    obtain ⟨j, c⟩ := c
    by_cases h1 : i < j
    · simp [Memory.write, Memory.read, h1, h]
    · by_cases h2 : i = j
      · subst h2; simp [Memory.write, Memory.read, h]
      · simp [Memory.write, Memory.read, h1, h2, ih]

/-- What one byte reads as after one write. -/
theorem Memory.read_write (m : Memory) (i k : Nat) (b : Byte) :
    (m.write i b).read k = if k = i then some b else m.read k := by
  split
  · next h => rw [h, Memory.read_write_same]
  · next h => rw [Memory.read_write_other m b h]

/-- What one byte reads as after writing many. -/
theorem Memory.read_writeBytes (m : Memory) (start k : Nat) (bs : List Byte) :
    (m.writeBytes start bs).read k =
      if start ≤ k ∧ k < start + bs.length then bs[k - start]? else m.read k := by
  induction bs generalizing m start with
  | nil => simp [Memory.writeBytes]
  | cons b bs ih =>
    rw [Memory.writeBytes, ih, Memory.read_write]
    simp only [List.length_cons]
    by_cases h : k = start
    · subst h; simp
    · by_cases h2 : start + 1 ≤ k ∧ k < start + 1 + bs.length
      · have h3 : start ≤ k ∧ k < start + (bs.length + 1) := by omega
        have h4 : k - start = (k - (start + 1)) + 1 := by omega
        rw [if_pos h2, if_pos h3, h4, List.getElem?_cons_succ]
      · have h3 : ¬(start ≤ k ∧ k < start + (bs.length + 1)) := by omega
        rw [if_neg h2, if_neg h3, if_neg h]

theorem Memory.readBytes_zero (m : Memory) (start : Nat) : m.readBytes start 0 = some [] := rfl

theorem Memory.readBytes_succ_eq_some (m : Memory) (start n : Nat) (l : List Byte) :
    m.readBytes start (n + 1) = some l ↔
      ∃ b bs, l = b :: bs ∧ m.read start = some b ∧ m.readBytes (start + 1) n = some bs := by
  rw [Memory.readBytes]
  constructor
  · intro h
    split at h
    · next b bs hb hbs => cases h; exact ⟨b, bs, rfl, hb, hbs⟩
    · cases h
  · rintro ⟨b, bs, rfl, hb, hbs⟩
    rw [hb, hbs]

/-- Many bytes are read exactly if each of them is. -/
theorem Memory.readBytes_eq_some (m : Memory) (start n : Nat) (l : List Byte) :
    m.readBytes start n = some l ↔ l.length = n ∧ ∀ k, k < n → m.read (start + k) = l[k]? := by
  induction n generalizing start l with
  | zero =>
    rw [Memory.readBytes_zero]
    constructor
    · rintro ⟨rfl⟩; simp
    · rintro ⟨h, -⟩; rw [List.length_eq_zero_iff.mp h]
  | succ n ih =>
    rw [Memory.readBytes_succ_eq_some]
    constructor
    · rintro ⟨b, bs, rfl, hb, hbs⟩
      obtain ⟨hl, hr⟩ := (ih (start + 1) bs).mp hbs
      refine ⟨by simp [hl], fun k hk => ?_⟩
      cases k with
      | zero => simpa using hb
      | succ k =>
        have := hr k (by omega)
        rw [show start + (k + 1) = start + 1 + k by omega, this, List.getElem?_cons_succ]
    · rintro ⟨hl, hr⟩
      cases l with
      | nil => simp at hl
      | cons b bs =>
        refine ⟨b, bs, rfl, by simpa using hr 0 (by omega), (ih (start + 1) bs).mpr ⟨by simpa using hl, fun k hk => ?_⟩⟩
        have := hr (k + 1) (by omega)
        rw [show start + (k + 1) = start + 1 + k by omega, List.getElem?_cons_succ] at this
        exact this

/-- A byte appended to what is visible. -/
theorem Memory.readBytes_write_end (m : Memory) (n : Nat) (l : List Byte) (b : Byte)
    (h : m.readBytes 0 n = some l) : (m.write n b).readBytes 0 (n + 1) = some (l ++ [b]) := by
  rw [Memory.readBytes_eq_some] at h ⊢
  obtain ⟨hl, hr⟩ := h
  refine ⟨by simp [hl], fun k hk => ?_⟩
  rw [Memory.read_write]
  split
  · next hk' => simp only [Nat.zero_add] at hk'; subst hk'; simp [← hl]
  · next hk' =>
    have hk2 : k < n := by omega
    rw [hr k hk2, List.getElem?_append_left (by omega)]

/-- What is visible is not changed by a write behind it. -/
theorem Memory.readBytes_write_behind (m : Memory) {start n i : Nat} (b : Byte)
    (h : start + n ≤ i) : (m.write i b).readBytes start n = m.readBytes start n := by
  induction n generalizing start with
  | zero => rfl
  | succ n ih =>
    rw [Memory.readBytes, Memory.readBytes, Memory.read_write_other m b (by omega), ih (by omega)]

/-- A frame written at index 0 reads back whole. -/
theorem Memory.readBytes_writeBytes (m : Memory) (bs : List Byte) :
    (m.writeBytes 0 bs).readBytes 0 bs.length = some bs := by
  rw [Memory.readBytes_eq_some]
  refine ⟨rfl, fun k hk => ?_⟩
  rw [Memory.read_writeBytes, if_pos (by omega)]
  simp

theorem Memory.writeBytes_append (m : Memory) (start : Nat) (as bs : List Byte) :
    m.writeBytes start (as ++ bs) = (m.writeBytes start as).writeBytes (start + as.length) bs := by
  induction as generalizing m start with
  | nil => simp [Memory.writeBytes]
  | cons a as ih =>
    rw [List.cons_append, Memory.writeBytes, Memory.writeBytes, ih, List.length_cons,
      Nat.add_assoc, Nat.add_comm 1]

/-! ## The canonical form -/

theorem Memory.wf_nil : Memory.wf [] := by simp [Memory.wf]

theorem Memory.mem_write (m : Memory) (i : Nat) (b : Byte) (c : Host.Cell)
    (h : c ∈ m.write i b) : c = (i, b) ∨ c ∈ m := by
  induction m with
  | nil => simpa [Memory.write] using h
  | cons d m ih =>
    obtain ⟨j, d⟩ := d
    rw [Memory.write] at h
    split at h
    · simp at h ⊢; tauto
    · split at h
      · simp at h ⊢; tauto
      · simp only [List.mem_cons] at h ⊢
        rcases h with h | h
        · exact .inr (.inl h)
        · rcases ih h with h | h <;> tauto

/-- A write inside the buffer keeps the canonical form. -/
theorem Memory.wf_write (m : Memory) (i : Nat) (b : Byte) (hm : m.wf) (hi : i < Config.bufSize) :
    (m.write i b).wf := by
  obtain ⟨hp, hb⟩ := hm
  refine ⟨?_, ?_⟩
  · clear hb
    induction m with
    | nil => simp [Memory.write]
    | cons d m ih =>
      obtain ⟨j, d⟩ := d
      obtain ⟨h1, h2⟩ := List.pairwise_cons.mp hp
      rw [Memory.write]
      split
      · next hlt =>
        refine List.pairwise_cons.mpr ⟨fun a ha => ?_, hp⟩
        rcases List.mem_cons.mp ha with rfl | ha
        · exact hlt
        · exact Nat.lt_trans hlt (h1 a ha)
      · split
        · next heq => subst heq; exact List.pairwise_cons.mpr ⟨h1, h2⟩
        · next hge hne =>
          refine List.pairwise_cons.mpr ⟨fun a ha => ?_, ih h2⟩
          rcases Memory.mem_write m i b a ha with rfl | ha
          · show j < i; omega
          · exact h1 a ha
  · intro c hc
    rcases Memory.mem_write m i b c hc with rfl | hc
    · exact hi
    · exact hb c hc

/-- Writing a frame that fits the buffer keeps the canonical form. -/
theorem Memory.wf_writeBytes (m : Memory) (start : Nat) (bs : List Byte) (hm : m.wf)
    (h : start + bs.length ≤ Config.bufSize) : (m.writeBytes start bs).wf := by
  induction bs generalizing m start with
  | nil => exact hm
  | cons b bs ih =>
    simp only [List.length_cons] at h
    exact ih _ _ (Memory.wf_write m start b hm (by omega)) (by omega)

/-- `MemWrite` inside the buffer keeps the canonical form. -/
theorem Memory.wf_memWrite (m : Memory) (addr n v : Nat) (hm : m.wf)
    (h : addr + n ≤ Config.bufSize) : (m.memWrite addr n v).wf := by
  have hl : ∀ n v, (lowBytes n v).length = n := by
    intro n
    induction n with
    | zero => intro v; rfl
    | succ n ih => intro v; simp [lowBytes, ih]
  exact Memory.wf_writeBytes m addr _ hm (by rw [hl]; exact h)

/-- The buffers at reset have the canonical form. -/
theorem reset_buffers_wf : State.reset.x.wf ∧ State.reset.t.wf := ⟨Memory.wf_nil, Memory.wf_nil⟩

end Sys2Proof.Machine
end

