-- ==== Sys2Proof/Laws/State.lean ====
section
/-! SUPPORT. Laws/State.lean: one lemma for each field and each named update of the state, true by
unfolding, so that no later proof unfolds a record update. -/

namespace Sys2Proof.Machine

/-! ### emit -/
@[simp] theorem emit_fsm (r : Result) (s : State) : (emit r s).fsm = s.fsm := rfl
@[simp] theorem emit_op (r : Result) (s : State) : (emit r s).op = s.op := rfl
@[simp] theorem emit_reqId (r : Result) (s : State) : (emit r s).reqId = s.reqId := rfl
@[simp] theorem emit_cnt (r : Result) (s : State) : (emit r s).cnt = s.cnt := rfl
@[simp] theorem emit_len (r : Result) (s : State) : (emit r s).len = s.len := rfl
@[simp] theorem emit_acc (r : Result) (s : State) : (emit r s).acc = s.acc := rfl
@[simp] theorem emit_x (r : Result) (s : State) : (emit r s).x = s.x := rfl
@[simp] theorem emit_t (r : Result) (s : State) : (emit r s).t = s.t := rfl
@[simp] theorem emit_txLen (r : Result) (s : State) : (emit r s).txLen = s.txLen := rfl
@[simp] theorem emit_txIdx (r : Result) (s : State) : (emit r s).txIdx = s.txIdx := rfl
@[simp] theorem emit_dist (r : Result) (s : State) : (emit r s).dist = s.dist := rfl
@[simp] theorem emit_strength (r : Result) (s : State) : (emit r s).strength = s.strength := rfl
@[simp] theorem emit_tempRaw (r : Result) (s : State) : (emit r s).tempRaw = s.tempRaw := rfl
@[simp] theorem emit_csumOk (r : Result) (s : State) : (emit r s).csumOk = s.csumOk := rfl
@[simp] theorem emit_tlmValid (r : Result) (s : State) : (emit r s).tlmValid = s.tlmValid := rfl
@[simp] theorem emit_respId (r : Result) (s : State) : (emit r s).respId = s.respId := rfl
@[simp] theorem emit_respLen (r : Result) (s : State) : (emit r s).respLen = s.respLen := rfl
@[simp] theorem emit_respValid (r : Result) (s : State) : (emit r s).respValid = s.respValid := rfl
@[simp] theorem emit_verPatch (r : Result) (s : State) : (emit r s).verPatch = s.verPatch := rfl
@[simp] theorem emit_verMinor (r : Result) (s : State) : (emit r s).verMinor = s.verMinor := rfl
@[simp] theorem emit_verMajor (r : Result) (s : State) : (emit r s).verMajor = s.verMajor := rfl
@[simp] theorem emit_verValid (r : Result) (s : State) : (emit r s).verValid = s.verValid := rfl
@[simp] theorem emit_err (r : Result) (s : State) : (emit r s).err = s.err := rfl
@[simp] theorem emit_errCorr (r : Result) (s : State) : (emit r s).errCorr = s.errCorr := rfl
@[simp] theorem emit_inputs (r : Result) (s : State) : (emit r s).inputs = s.inputs := rfl
@[simp] theorem emit_rxLog (r : Result) (s : State) : (emit r s).rxLog = s.rxLog := rfl
@[simp] theorem emit_out (r : Result) (s : State) : (emit r s).out = s.out ++ [.res r] := rfl

/-! ### txByte -/
@[simp] theorem txByte_fsm (b : Byte) (s : State) : (txByte b s).fsm = s.fsm := rfl
@[simp] theorem txByte_op (b : Byte) (s : State) : (txByte b s).op = s.op := rfl
@[simp] theorem txByte_reqId (b : Byte) (s : State) : (txByte b s).reqId = s.reqId := rfl
@[simp] theorem txByte_cnt (b : Byte) (s : State) : (txByte b s).cnt = s.cnt := rfl
@[simp] theorem txByte_len (b : Byte) (s : State) : (txByte b s).len = s.len := rfl
@[simp] theorem txByte_acc (b : Byte) (s : State) : (txByte b s).acc = s.acc := rfl
@[simp] theorem txByte_x (b : Byte) (s : State) : (txByte b s).x = s.x := rfl
@[simp] theorem txByte_t (b : Byte) (s : State) : (txByte b s).t = s.t := rfl
@[simp] theorem txByte_txLen (b : Byte) (s : State) : (txByte b s).txLen = s.txLen := rfl
@[simp] theorem txByte_txIdx (b : Byte) (s : State) : (txByte b s).txIdx = s.txIdx := rfl
@[simp] theorem txByte_dist (b : Byte) (s : State) : (txByte b s).dist = s.dist := rfl
@[simp] theorem txByte_strength (b : Byte) (s : State) : (txByte b s).strength = s.strength := rfl
@[simp] theorem txByte_tempRaw (b : Byte) (s : State) : (txByte b s).tempRaw = s.tempRaw := rfl
@[simp] theorem txByte_csumOk (b : Byte) (s : State) : (txByte b s).csumOk = s.csumOk := rfl
@[simp] theorem txByte_tlmValid (b : Byte) (s : State) : (txByte b s).tlmValid = s.tlmValid := rfl
@[simp] theorem txByte_respId (b : Byte) (s : State) : (txByte b s).respId = s.respId := rfl
@[simp] theorem txByte_respLen (b : Byte) (s : State) : (txByte b s).respLen = s.respLen := rfl
@[simp] theorem txByte_respValid (b : Byte) (s : State) : (txByte b s).respValid = s.respValid := rfl
@[simp] theorem txByte_verPatch (b : Byte) (s : State) : (txByte b s).verPatch = s.verPatch := rfl
@[simp] theorem txByte_verMinor (b : Byte) (s : State) : (txByte b s).verMinor = s.verMinor := rfl
@[simp] theorem txByte_verMajor (b : Byte) (s : State) : (txByte b s).verMajor = s.verMajor := rfl
@[simp] theorem txByte_verValid (b : Byte) (s : State) : (txByte b s).verValid = s.verValid := rfl
@[simp] theorem txByte_err (b : Byte) (s : State) : (txByte b s).err = s.err := rfl
@[simp] theorem txByte_errCorr (b : Byte) (s : State) : (txByte b s).errCorr = s.errCorr := rfl
@[simp] theorem txByte_inputs (b : Byte) (s : State) : (txByte b s).inputs = s.inputs := rfl
@[simp] theorem txByte_rxLog (b : Byte) (s : State) : (txByte b s).rxLog = s.rxLog := rfl
@[simp] theorem txByte_out (b : Byte) (s : State) : (txByte b s).out = s.out ++ [.tx b] := rfl

/-! ### consume -/
@[simp] theorem consume_fsm (b : Byte) (s : State) : (consume b s).fsm = s.fsm := rfl
@[simp] theorem consume_op (b : Byte) (s : State) : (consume b s).op = s.op := rfl
@[simp] theorem consume_reqId (b : Byte) (s : State) : (consume b s).reqId = s.reqId := rfl
@[simp] theorem consume_cnt (b : Byte) (s : State) : (consume b s).cnt = s.cnt := rfl
@[simp] theorem consume_len (b : Byte) (s : State) : (consume b s).len = s.len := rfl
@[simp] theorem consume_acc (b : Byte) (s : State) : (consume b s).acc = s.acc := rfl
@[simp] theorem consume_x (b : Byte) (s : State) : (consume b s).x = s.x := rfl
@[simp] theorem consume_t (b : Byte) (s : State) : (consume b s).t = s.t := rfl
@[simp] theorem consume_txLen (b : Byte) (s : State) : (consume b s).txLen = s.txLen := rfl
@[simp] theorem consume_txIdx (b : Byte) (s : State) : (consume b s).txIdx = s.txIdx := rfl
@[simp] theorem consume_dist (b : Byte) (s : State) : (consume b s).dist = s.dist := rfl
@[simp] theorem consume_strength (b : Byte) (s : State) : (consume b s).strength = s.strength := rfl
@[simp] theorem consume_tempRaw (b : Byte) (s : State) : (consume b s).tempRaw = s.tempRaw := rfl
@[simp] theorem consume_csumOk (b : Byte) (s : State) : (consume b s).csumOk = s.csumOk := rfl
@[simp] theorem consume_tlmValid (b : Byte) (s : State) : (consume b s).tlmValid = s.tlmValid := rfl
@[simp] theorem consume_respId (b : Byte) (s : State) : (consume b s).respId = s.respId := rfl
@[simp] theorem consume_respLen (b : Byte) (s : State) : (consume b s).respLen = s.respLen := rfl
@[simp] theorem consume_respValid (b : Byte) (s : State) : (consume b s).respValid = s.respValid := rfl
@[simp] theorem consume_verPatch (b : Byte) (s : State) : (consume b s).verPatch = s.verPatch := rfl
@[simp] theorem consume_verMinor (b : Byte) (s : State) : (consume b s).verMinor = s.verMinor := rfl
@[simp] theorem consume_verMajor (b : Byte) (s : State) : (consume b s).verMajor = s.verMajor := rfl
@[simp] theorem consume_verValid (b : Byte) (s : State) : (consume b s).verValid = s.verValid := rfl
@[simp] theorem consume_err (b : Byte) (s : State) : (consume b s).err = s.err := rfl
@[simp] theorem consume_errCorr (b : Byte) (s : State) : (consume b s).errCorr = s.errCorr := rfl
@[simp] theorem consume_inputs (b : Byte) (s : State) : (consume b s).inputs = s.inputs := rfl
@[simp] theorem consume_rxLog (b : Byte) (s : State) : (consume b s).rxLog = s.rxLog ++ [b] := rfl
@[simp] theorem consume_out (b : Byte) (s : State) : (consume b s).out = s.out := rfl

/-! ### raiseError -/
@[simp] theorem raiseError_fsm (e : ErrCode) (c : Bool) (s : State) : (raiseError e c s).fsm = afterError e := rfl
@[simp] theorem raiseError_op (e : ErrCode) (c : Bool) (s : State) : (raiseError e c s).op = s.op := rfl
@[simp] theorem raiseError_reqId (e : ErrCode) (c : Bool) (s : State) : (raiseError e c s).reqId = s.reqId := rfl
@[simp] theorem raiseError_cnt (e : ErrCode) (c : Bool) (s : State) : (raiseError e c s).cnt = 0#8 := rfl
@[simp] theorem raiseError_len (e : ErrCode) (c : Bool) (s : State) : (raiseError e c s).len = s.len := rfl
@[simp] theorem raiseError_acc (e : ErrCode) (c : Bool) (s : State) : (raiseError e c s).acc = s.acc := rfl
@[simp] theorem raiseError_x (e : ErrCode) (c : Bool) (s : State) : (raiseError e c s).x = s.x := rfl
@[simp] theorem raiseError_t (e : ErrCode) (c : Bool) (s : State) : (raiseError e c s).t = s.t := rfl
@[simp] theorem raiseError_txLen (e : ErrCode) (c : Bool) (s : State) : (raiseError e c s).txLen = s.txLen := rfl
@[simp] theorem raiseError_txIdx (e : ErrCode) (c : Bool) (s : State) : (raiseError e c s).txIdx = s.txIdx := rfl
@[simp] theorem raiseError_dist (e : ErrCode) (c : Bool) (s : State) : (raiseError e c s).dist = s.dist := rfl
@[simp] theorem raiseError_strength (e : ErrCode) (c : Bool) (s : State) : (raiseError e c s).strength = s.strength := rfl
@[simp] theorem raiseError_tempRaw (e : ErrCode) (c : Bool) (s : State) : (raiseError e c s).tempRaw = s.tempRaw := rfl
@[simp] theorem raiseError_csumOk (e : ErrCode) (c : Bool) (s : State) : (raiseError e c s).csumOk = s.csumOk := rfl
@[simp] theorem raiseError_tlmValid (e : ErrCode) (c : Bool) (s : State) : (raiseError e c s).tlmValid = s.tlmValid := rfl
@[simp] theorem raiseError_respId (e : ErrCode) (c : Bool) (s : State) : (raiseError e c s).respId = s.respId := rfl
@[simp] theorem raiseError_respLen (e : ErrCode) (c : Bool) (s : State) : (raiseError e c s).respLen = s.respLen := rfl
@[simp] theorem raiseError_respValid (e : ErrCode) (c : Bool) (s : State) : (raiseError e c s).respValid = false := rfl
@[simp] theorem raiseError_verPatch (e : ErrCode) (c : Bool) (s : State) : (raiseError e c s).verPatch = s.verPatch := rfl
@[simp] theorem raiseError_verMinor (e : ErrCode) (c : Bool) (s : State) : (raiseError e c s).verMinor = s.verMinor := rfl
@[simp] theorem raiseError_verMajor (e : ErrCode) (c : Bool) (s : State) : (raiseError e c s).verMajor = s.verMajor := rfl
@[simp] theorem raiseError_verValid (e : ErrCode) (c : Bool) (s : State) : (raiseError e c s).verValid = s.verValid := rfl
@[simp] theorem raiseError_err (e : ErrCode) (c : Bool) (s : State) : (raiseError e c s).err = e := rfl
@[simp] theorem raiseError_errCorr (e : ErrCode) (c : Bool) (s : State) : (raiseError e c s).errCorr = c := rfl
@[simp] theorem raiseError_inputs (e : ErrCode) (c : Bool) (s : State) : (raiseError e c s).inputs = s.inputs := rfl
@[simp] theorem raiseError_rxLog (e : ErrCode) (c : Bool) (s : State) : (raiseError e c s).rxLog = s.rxLog := rfl
@[simp] theorem raiseError_out (e : ErrCode) (c : Bool) (s : State) : (raiseError e c s).out = s.out ++ [.res (.error e c)] := rfl

/-! ### refuseRequest -/
@[simp] theorem refuseRequest_fsm (e : ErrCode) (s : State) : (refuseRequest e s).fsm = s.fsm := rfl
@[simp] theorem refuseRequest_op (e : ErrCode) (s : State) : (refuseRequest e s).op = s.op := rfl
@[simp] theorem refuseRequest_reqId (e : ErrCode) (s : State) : (refuseRequest e s).reqId = s.reqId := rfl
@[simp] theorem refuseRequest_cnt (e : ErrCode) (s : State) : (refuseRequest e s).cnt = s.cnt := rfl
@[simp] theorem refuseRequest_len (e : ErrCode) (s : State) : (refuseRequest e s).len = s.len := rfl
@[simp] theorem refuseRequest_acc (e : ErrCode) (s : State) : (refuseRequest e s).acc = s.acc := rfl
@[simp] theorem refuseRequest_x (e : ErrCode) (s : State) : (refuseRequest e s).x = s.x := rfl
@[simp] theorem refuseRequest_t (e : ErrCode) (s : State) : (refuseRequest e s).t = s.t := rfl
@[simp] theorem refuseRequest_txLen (e : ErrCode) (s : State) : (refuseRequest e s).txLen = s.txLen := rfl
@[simp] theorem refuseRequest_txIdx (e : ErrCode) (s : State) : (refuseRequest e s).txIdx = s.txIdx := rfl
@[simp] theorem refuseRequest_dist (e : ErrCode) (s : State) : (refuseRequest e s).dist = s.dist := rfl
@[simp] theorem refuseRequest_strength (e : ErrCode) (s : State) : (refuseRequest e s).strength = s.strength := rfl
@[simp] theorem refuseRequest_tempRaw (e : ErrCode) (s : State) : (refuseRequest e s).tempRaw = s.tempRaw := rfl
@[simp] theorem refuseRequest_csumOk (e : ErrCode) (s : State) : (refuseRequest e s).csumOk = s.csumOk := rfl
@[simp] theorem refuseRequest_tlmValid (e : ErrCode) (s : State) : (refuseRequest e s).tlmValid = s.tlmValid := rfl
@[simp] theorem refuseRequest_respId (e : ErrCode) (s : State) : (refuseRequest e s).respId = s.respId := rfl
@[simp] theorem refuseRequest_respLen (e : ErrCode) (s : State) : (refuseRequest e s).respLen = s.respLen := rfl
@[simp] theorem refuseRequest_respValid (e : ErrCode) (s : State) : (refuseRequest e s).respValid = s.respValid := rfl
@[simp] theorem refuseRequest_verPatch (e : ErrCode) (s : State) : (refuseRequest e s).verPatch = s.verPatch := rfl
@[simp] theorem refuseRequest_verMinor (e : ErrCode) (s : State) : (refuseRequest e s).verMinor = s.verMinor := rfl
@[simp] theorem refuseRequest_verMajor (e : ErrCode) (s : State) : (refuseRequest e s).verMajor = s.verMajor := rfl
@[simp] theorem refuseRequest_verValid (e : ErrCode) (s : State) : (refuseRequest e s).verValid = s.verValid := rfl
@[simp] theorem refuseRequest_err (e : ErrCode) (s : State) : (refuseRequest e s).err = e := rfl
@[simp] theorem refuseRequest_errCorr (e : ErrCode) (s : State) : (refuseRequest e s).errCorr = false := rfl
@[simp] theorem refuseRequest_inputs (e : ErrCode) (s : State) : (refuseRequest e s).inputs = s.inputs := rfl
@[simp] theorem refuseRequest_rxLog (e : ErrCode) (s : State) : (refuseRequest e s).rxLog = s.rxLog := rfl
@[simp] theorem refuseRequest_out (e : ErrCode) (s : State) : (refuseRequest e s).out = s.out ++ [.res (.error e false)] := rfl

/-! ### acceptOp -/
@[simp] theorem acceptOp_fsm (o : Op) (s : State) : (acceptOp o s).fsm = s.fsm := rfl
@[simp] theorem acceptOp_op (o : Op) (s : State) : (acceptOp o s).op = o := rfl
@[simp] theorem acceptOp_reqId (o : Op) (s : State) : (acceptOp o s).reqId = s.reqId := rfl
@[simp] theorem acceptOp_cnt (o : Op) (s : State) : (acceptOp o s).cnt = s.cnt := rfl
@[simp] theorem acceptOp_len (o : Op) (s : State) : (acceptOp o s).len = s.len := rfl
@[simp] theorem acceptOp_acc (o : Op) (s : State) : (acceptOp o s).acc = s.acc := rfl
@[simp] theorem acceptOp_x (o : Op) (s : State) : (acceptOp o s).x = s.x := rfl
@[simp] theorem acceptOp_t (o : Op) (s : State) : (acceptOp o s).t = s.t := rfl
@[simp] theorem acceptOp_txLen (o : Op) (s : State) : (acceptOp o s).txLen = s.txLen := rfl
@[simp] theorem acceptOp_txIdx (o : Op) (s : State) : (acceptOp o s).txIdx = s.txIdx := rfl
@[simp] theorem acceptOp_dist (o : Op) (s : State) : (acceptOp o s).dist = s.dist := rfl
@[simp] theorem acceptOp_strength (o : Op) (s : State) : (acceptOp o s).strength = s.strength := rfl
@[simp] theorem acceptOp_tempRaw (o : Op) (s : State) : (acceptOp o s).tempRaw = s.tempRaw := rfl
@[simp] theorem acceptOp_csumOk (o : Op) (s : State) : (acceptOp o s).csumOk = s.csumOk := rfl
@[simp] theorem acceptOp_tlmValid (o : Op) (s : State) : (acceptOp o s).tlmValid = s.tlmValid := rfl
@[simp] theorem acceptOp_respId (o : Op) (s : State) : (acceptOp o s).respId = s.respId := rfl
@[simp] theorem acceptOp_respLen (o : Op) (s : State) : (acceptOp o s).respLen = s.respLen := rfl
@[simp] theorem acceptOp_respValid (o : Op) (s : State) : (acceptOp o s).respValid = s.respValid := rfl
@[simp] theorem acceptOp_verPatch (o : Op) (s : State) : (acceptOp o s).verPatch = s.verPatch := rfl
@[simp] theorem acceptOp_verMinor (o : Op) (s : State) : (acceptOp o s).verMinor = s.verMinor := rfl
@[simp] theorem acceptOp_verMajor (o : Op) (s : State) : (acceptOp o s).verMajor = s.verMajor := rfl
@[simp] theorem acceptOp_verValid (o : Op) (s : State) : (acceptOp o s).verValid = s.verValid := rfl
@[simp] theorem acceptOp_err (o : Op) (s : State) : (acceptOp o s).err = .none := rfl
@[simp] theorem acceptOp_errCorr (o : Op) (s : State) : (acceptOp o s).errCorr = false := rfl
@[simp] theorem acceptOp_inputs (o : Op) (s : State) : (acceptOp o s).inputs = s.inputs := rfl
@[simp] theorem acceptOp_rxLog (o : Op) (s : State) : (acceptOp o s).rxLog = s.rxLog := rfl
@[simp] theorem acceptOp_out (o : Op) (s : State) : (acceptOp o s).out = s.out := rfl

/-! ### hideReceived -/
@[simp] theorem hideReceived_fsm (s : State) : (hideReceived s).fsm = s.fsm := rfl
@[simp] theorem hideReceived_op (s : State) : (hideReceived s).op = s.op := rfl
@[simp] theorem hideReceived_reqId (s : State) : (hideReceived s).reqId = s.reqId := rfl
@[simp] theorem hideReceived_cnt (s : State) : (hideReceived s).cnt = 0#8 := rfl
@[simp] theorem hideReceived_len (s : State) : (hideReceived s).len = s.len := rfl
@[simp] theorem hideReceived_acc (s : State) : (hideReceived s).acc = s.acc := rfl
@[simp] theorem hideReceived_x (s : State) : (hideReceived s).x = s.x := rfl
@[simp] theorem hideReceived_t (s : State) : (hideReceived s).t = s.t := rfl
@[simp] theorem hideReceived_txLen (s : State) : (hideReceived s).txLen = s.txLen := rfl
@[simp] theorem hideReceived_txIdx (s : State) : (hideReceived s).txIdx = s.txIdx := rfl
@[simp] theorem hideReceived_dist (s : State) : (hideReceived s).dist = s.dist := rfl
@[simp] theorem hideReceived_strength (s : State) : (hideReceived s).strength = s.strength := rfl
@[simp] theorem hideReceived_tempRaw (s : State) : (hideReceived s).tempRaw = s.tempRaw := rfl
@[simp] theorem hideReceived_csumOk (s : State) : (hideReceived s).csumOk = s.csumOk := rfl
@[simp] theorem hideReceived_tlmValid (s : State) : (hideReceived s).tlmValid = s.tlmValid := rfl
@[simp] theorem hideReceived_respId (s : State) : (hideReceived s).respId = s.respId := rfl
@[simp] theorem hideReceived_respLen (s : State) : (hideReceived s).respLen = s.respLen := rfl
@[simp] theorem hideReceived_respValid (s : State) : (hideReceived s).respValid = false := rfl
@[simp] theorem hideReceived_verPatch (s : State) : (hideReceived s).verPatch = s.verPatch := rfl
@[simp] theorem hideReceived_verMinor (s : State) : (hideReceived s).verMinor = s.verMinor := rfl
@[simp] theorem hideReceived_verMajor (s : State) : (hideReceived s).verMajor = s.verMajor := rfl
@[simp] theorem hideReceived_verValid (s : State) : (hideReceived s).verValid = s.verValid := rfl
@[simp] theorem hideReceived_err (s : State) : (hideReceived s).err = s.err := rfl
@[simp] theorem hideReceived_errCorr (s : State) : (hideReceived s).errCorr = s.errCorr := rfl
@[simp] theorem hideReceived_inputs (s : State) : (hideReceived s).inputs = s.inputs := rfl
@[simp] theorem hideReceived_rxLog (s : State) : (hideReceived s).rxLog = s.rxLog := rfl
@[simp] theorem hideReceived_out (s : State) : (hideReceived s).out = s.out := rfl

/-! ### loadFrame -/
@[simp] theorem loadFrame_fsm (f : List Byte) (s : State) : (loadFrame f s).fsm = s.fsm := rfl
@[simp] theorem loadFrame_op (f : List Byte) (s : State) : (loadFrame f s).op = s.op := rfl
@[simp] theorem loadFrame_reqId (f : List Byte) (s : State) : (loadFrame f s).reqId = s.reqId := rfl
@[simp] theorem loadFrame_cnt (f : List Byte) (s : State) : (loadFrame f s).cnt = s.cnt := rfl
@[simp] theorem loadFrame_len (f : List Byte) (s : State) : (loadFrame f s).len = s.len := rfl
@[simp] theorem loadFrame_acc (f : List Byte) (s : State) : (loadFrame f s).acc = s.acc := rfl
@[simp] theorem loadFrame_x (f : List Byte) (s : State) : (loadFrame f s).x = s.x := rfl
@[simp] theorem loadFrame_t (f : List Byte) (s : State) : (loadFrame f s).t = s.t.writeBytes 0 f := rfl
@[simp] theorem loadFrame_txLen (f : List Byte) (s : State) : (loadFrame f s).txLen = BitVec.ofNat 8 f.length := rfl
@[simp] theorem loadFrame_txIdx (f : List Byte) (s : State) : (loadFrame f s).txIdx = 0#8 := rfl
@[simp] theorem loadFrame_dist (f : List Byte) (s : State) : (loadFrame f s).dist = s.dist := rfl
@[simp] theorem loadFrame_strength (f : List Byte) (s : State) : (loadFrame f s).strength = s.strength := rfl
@[simp] theorem loadFrame_tempRaw (f : List Byte) (s : State) : (loadFrame f s).tempRaw = s.tempRaw := rfl
@[simp] theorem loadFrame_csumOk (f : List Byte) (s : State) : (loadFrame f s).csumOk = s.csumOk := rfl
@[simp] theorem loadFrame_tlmValid (f : List Byte) (s : State) : (loadFrame f s).tlmValid = s.tlmValid := rfl
@[simp] theorem loadFrame_respId (f : List Byte) (s : State) : (loadFrame f s).respId = s.respId := rfl
@[simp] theorem loadFrame_respLen (f : List Byte) (s : State) : (loadFrame f s).respLen = s.respLen := rfl
@[simp] theorem loadFrame_respValid (f : List Byte) (s : State) : (loadFrame f s).respValid = s.respValid := rfl
@[simp] theorem loadFrame_verPatch (f : List Byte) (s : State) : (loadFrame f s).verPatch = s.verPatch := rfl
@[simp] theorem loadFrame_verMinor (f : List Byte) (s : State) : (loadFrame f s).verMinor = s.verMinor := rfl
@[simp] theorem loadFrame_verMajor (f : List Byte) (s : State) : (loadFrame f s).verMajor = s.verMajor := rfl
@[simp] theorem loadFrame_verValid (f : List Byte) (s : State) : (loadFrame f s).verValid = s.verValid := rfl
@[simp] theorem loadFrame_err (f : List Byte) (s : State) : (loadFrame f s).err = s.err := rfl
@[simp] theorem loadFrame_errCorr (f : List Byte) (s : State) : (loadFrame f s).errCorr = s.errCorr := rfl
@[simp] theorem loadFrame_inputs (f : List Byte) (s : State) : (loadFrame f s).inputs = s.inputs := rfl
@[simp] theorem loadFrame_rxLog (f : List Byte) (s : State) : (loadFrame f s).rxLog = s.rxLog := rfl
@[simp] theorem loadFrame_out (f : List Byte) (s : State) : (loadFrame f s).out = s.out := rfl

/-! ### recordResponse -/
@[simp] theorem recordResponse_fsm (i : Byte) (s : State) : (recordResponse i s).fsm = .idle := rfl
@[simp] theorem recordResponse_op (i : Byte) (s : State) : (recordResponse i s).op = s.op := rfl
@[simp] theorem recordResponse_reqId (i : Byte) (s : State) : (recordResponse i s).reqId = s.reqId := rfl
@[simp] theorem recordResponse_cnt (i : Byte) (s : State) : (recordResponse i s).cnt = s.cnt := rfl
@[simp] theorem recordResponse_len (i : Byte) (s : State) : (recordResponse i s).len = s.len := rfl
@[simp] theorem recordResponse_acc (i : Byte) (s : State) : (recordResponse i s).acc = s.acc := rfl
@[simp] theorem recordResponse_x (i : Byte) (s : State) : (recordResponse i s).x = s.x := rfl
@[simp] theorem recordResponse_t (i : Byte) (s : State) : (recordResponse i s).t = s.t := rfl
@[simp] theorem recordResponse_txLen (i : Byte) (s : State) : (recordResponse i s).txLen = s.txLen := rfl
@[simp] theorem recordResponse_txIdx (i : Byte) (s : State) : (recordResponse i s).txIdx = s.txIdx := rfl
@[simp] theorem recordResponse_dist (i : Byte) (s : State) : (recordResponse i s).dist = s.dist := rfl
@[simp] theorem recordResponse_strength (i : Byte) (s : State) : (recordResponse i s).strength = s.strength := rfl
@[simp] theorem recordResponse_tempRaw (i : Byte) (s : State) : (recordResponse i s).tempRaw = s.tempRaw := rfl
@[simp] theorem recordResponse_csumOk (i : Byte) (s : State) : (recordResponse i s).csumOk = s.csumOk := rfl
@[simp] theorem recordResponse_tlmValid (i : Byte) (s : State) : (recordResponse i s).tlmValid = s.tlmValid := rfl
@[simp] theorem recordResponse_respId (i : Byte) (s : State) : (recordResponse i s).respId = i := rfl
@[simp] theorem recordResponse_respLen (i : Byte) (s : State) : (recordResponse i s).respLen = s.len - 4#8 := rfl
@[simp] theorem recordResponse_respValid (i : Byte) (s : State) : (recordResponse i s).respValid = true := rfl
@[simp] theorem recordResponse_verPatch (i : Byte) (s : State) : (recordResponse i s).verPatch = s.verPatch := rfl
@[simp] theorem recordResponse_verMinor (i : Byte) (s : State) : (recordResponse i s).verMinor = s.verMinor := rfl
@[simp] theorem recordResponse_verMajor (i : Byte) (s : State) : (recordResponse i s).verMajor = s.verMajor := rfl
@[simp] theorem recordResponse_verValid (i : Byte) (s : State) : (recordResponse i s).verValid = s.verValid := rfl
@[simp] theorem recordResponse_err (i : Byte) (s : State) : (recordResponse i s).err = s.err := rfl
@[simp] theorem recordResponse_errCorr (i : Byte) (s : State) : (recordResponse i s).errCorr = s.errCorr := rfl
@[simp] theorem recordResponse_inputs (i : Byte) (s : State) : (recordResponse i s).inputs = s.inputs := rfl
@[simp] theorem recordResponse_rxLog (i : Byte) (s : State) : (recordResponse i s).rxLog = s.rxLog := rfl
@[simp] theorem recordResponse_out (i : Byte) (s : State) : (recordResponse i s).out = s.out := rfl

/-! ### reportTelemetry -/
@[simp] theorem reportTelemetry_fsm (d st r : Half) (ok : Bool) (s : State) : (reportTelemetry d st r ok s).fsm = .tSeek0 := rfl
@[simp] theorem reportTelemetry_op (d st r : Half) (ok : Bool) (s : State) : (reportTelemetry d st r ok s).op = s.op := rfl
@[simp] theorem reportTelemetry_reqId (d st r : Half) (ok : Bool) (s : State) : (reportTelemetry d st r ok s).reqId = s.reqId := rfl
@[simp] theorem reportTelemetry_cnt (d st r : Half) (ok : Bool) (s : State) : (reportTelemetry d st r ok s).cnt = 0#8 := rfl
@[simp] theorem reportTelemetry_len (d st r : Half) (ok : Bool) (s : State) : (reportTelemetry d st r ok s).len = s.len := rfl
@[simp] theorem reportTelemetry_acc (d st r : Half) (ok : Bool) (s : State) : (reportTelemetry d st r ok s).acc = s.acc := rfl
@[simp] theorem reportTelemetry_x (d st r : Half) (ok : Bool) (s : State) : (reportTelemetry d st r ok s).x = s.x := rfl
@[simp] theorem reportTelemetry_t (d st r : Half) (ok : Bool) (s : State) : (reportTelemetry d st r ok s).t = s.t := rfl
@[simp] theorem reportTelemetry_txLen (d st r : Half) (ok : Bool) (s : State) : (reportTelemetry d st r ok s).txLen = s.txLen := rfl
@[simp] theorem reportTelemetry_txIdx (d st r : Half) (ok : Bool) (s : State) : (reportTelemetry d st r ok s).txIdx = s.txIdx := rfl
@[simp] theorem reportTelemetry_dist (d st r : Half) (ok : Bool) (s : State) : (reportTelemetry d st r ok s).dist = d := rfl
@[simp] theorem reportTelemetry_strength (d st r : Half) (ok : Bool) (s : State) : (reportTelemetry d st r ok s).strength = st := rfl
@[simp] theorem reportTelemetry_tempRaw (d st r : Half) (ok : Bool) (s : State) : (reportTelemetry d st r ok s).tempRaw = r := rfl
@[simp] theorem reportTelemetry_csumOk (d st r : Half) (ok : Bool) (s : State) : (reportTelemetry d st r ok s).csumOk = ok := rfl
@[simp] theorem reportTelemetry_tlmValid (d st r : Half) (ok : Bool) (s : State) : (reportTelemetry d st r ok s).tlmValid = true := rfl
@[simp] theorem reportTelemetry_respId (d st r : Half) (ok : Bool) (s : State) : (reportTelemetry d st r ok s).respId = s.respId := rfl
@[simp] theorem reportTelemetry_respLen (d st r : Half) (ok : Bool) (s : State) : (reportTelemetry d st r ok s).respLen = s.respLen := rfl
@[simp] theorem reportTelemetry_respValid (d st r : Half) (ok : Bool) (s : State) : (reportTelemetry d st r ok s).respValid = s.respValid := rfl
@[simp] theorem reportTelemetry_verPatch (d st r : Half) (ok : Bool) (s : State) : (reportTelemetry d st r ok s).verPatch = s.verPatch := rfl
@[simp] theorem reportTelemetry_verMinor (d st r : Half) (ok : Bool) (s : State) : (reportTelemetry d st r ok s).verMinor = s.verMinor := rfl
@[simp] theorem reportTelemetry_verMajor (d st r : Half) (ok : Bool) (s : State) : (reportTelemetry d st r ok s).verMajor = s.verMajor := rfl
@[simp] theorem reportTelemetry_verValid (d st r : Half) (ok : Bool) (s : State) : (reportTelemetry d st r ok s).verValid = s.verValid := rfl
@[simp] theorem reportTelemetry_err (d st r : Half) (ok : Bool) (s : State) : (reportTelemetry d st r ok s).err = s.err := rfl
@[simp] theorem reportTelemetry_errCorr (d st r : Half) (ok : Bool) (s : State) : (reportTelemetry d st r ok s).errCorr = s.errCorr := rfl
@[simp] theorem reportTelemetry_inputs (d st r : Half) (ok : Bool) (s : State) : (reportTelemetry d st r ok s).inputs = s.inputs := rfl
@[simp] theorem reportTelemetry_rxLog (d st r : Half) (ok : Bool) (s : State) : (reportTelemetry d st r ok s).rxLog = s.rxLog := rfl
@[simp] theorem reportTelemetry_out (d st r : Half) (ok : Bool) (s : State) : (reportTelemetry d st r ok s).out = s.out ++ [.res (.tlmFrame d st r ok)] := rfl

/-! ### resetRegisters -/
@[simp] theorem resetRegisters_fsm (s : State) : (resetRegisters s).fsm = State.reset.fsm := rfl
@[simp] theorem resetRegisters_op (s : State) : (resetRegisters s).op = State.reset.op := rfl
@[simp] theorem resetRegisters_reqId (s : State) : (resetRegisters s).reqId = State.reset.reqId := rfl
@[simp] theorem resetRegisters_cnt (s : State) : (resetRegisters s).cnt = State.reset.cnt := rfl
@[simp] theorem resetRegisters_len (s : State) : (resetRegisters s).len = State.reset.len := rfl
@[simp] theorem resetRegisters_acc (s : State) : (resetRegisters s).acc = State.reset.acc := rfl
@[simp] theorem resetRegisters_x (s : State) : (resetRegisters s).x = State.reset.x := rfl
@[simp] theorem resetRegisters_t (s : State) : (resetRegisters s).t = State.reset.t := rfl
@[simp] theorem resetRegisters_txLen (s : State) : (resetRegisters s).txLen = State.reset.txLen := rfl
@[simp] theorem resetRegisters_txIdx (s : State) : (resetRegisters s).txIdx = State.reset.txIdx := rfl
@[simp] theorem resetRegisters_dist (s : State) : (resetRegisters s).dist = State.reset.dist := rfl
@[simp] theorem resetRegisters_strength (s : State) : (resetRegisters s).strength = State.reset.strength := rfl
@[simp] theorem resetRegisters_tempRaw (s : State) : (resetRegisters s).tempRaw = State.reset.tempRaw := rfl
@[simp] theorem resetRegisters_csumOk (s : State) : (resetRegisters s).csumOk = State.reset.csumOk := rfl
@[simp] theorem resetRegisters_tlmValid (s : State) : (resetRegisters s).tlmValid = State.reset.tlmValid := rfl
@[simp] theorem resetRegisters_respId (s : State) : (resetRegisters s).respId = State.reset.respId := rfl
@[simp] theorem resetRegisters_respLen (s : State) : (resetRegisters s).respLen = State.reset.respLen := rfl
@[simp] theorem resetRegisters_respValid (s : State) : (resetRegisters s).respValid = State.reset.respValid := rfl
@[simp] theorem resetRegisters_verPatch (s : State) : (resetRegisters s).verPatch = State.reset.verPatch := rfl
@[simp] theorem resetRegisters_verMinor (s : State) : (resetRegisters s).verMinor = State.reset.verMinor := rfl
@[simp] theorem resetRegisters_verMajor (s : State) : (resetRegisters s).verMajor = State.reset.verMajor := rfl
@[simp] theorem resetRegisters_verValid (s : State) : (resetRegisters s).verValid = State.reset.verValid := rfl
@[simp] theorem resetRegisters_err (s : State) : (resetRegisters s).err = State.reset.err := rfl
@[simp] theorem resetRegisters_errCorr (s : State) : (resetRegisters s).errCorr = State.reset.errCorr := rfl
@[simp] theorem resetRegisters_inputs (s : State) : (resetRegisters s).inputs = s.inputs := rfl
@[simp] theorem resetRegisters_rxLog (s : State) : (resetRegisters s).rxLog = s.rxLog := rfl
@[simp] theorem resetRegisters_out (s : State) : (resetRegisters s).out = s.out := rfl

end Sys2Proof.Machine
end

