-- ==== Sys2Proof/Laws/Ops.lean ====
section
/-! SUPPORT. Laws/Ops.lean: for each shared operation, once, everything it can do when it answers a
next state; the step lemmas of the decoder, the sender and the receiver. -/

namespace Sys2Proof.Machine

theorem next_eq_next (s t : State) : (Host.Outcome.next s : Out) = .next t ↔ t = s := by
  constructor
  · intro h; cases h; rfl
  · rintro rfl; rfl

theorem andThen_eq_next (o : Out) (k : State → Out) (t : State) :
    andThen o k = .next t ↔ ∃ s, o = .next s ∧ k s = .next t := by
  cases o <;> simp [andThen]

@[simp] theorem andThen_next (s : State) (k : State → Out) : andThen (.next s) k = k s := rfl

theorem withByte_eq_next (buf : Buffer) (i : Nat) (s : State) (k : Byte → Out) (t : State) :
    withByte buf i s k = .next t ↔
      i < Config.bufSize ∧ ∃ b, (s.buffer buf).read i = some b ∧ k b = .next t := by
  rw [withByte]
  split
  · next h => cases hr : (s.buffer buf).read i <;> simp [h]
  · next h => simp [h]

/-- A byte that holds a value is read. -/
theorem withByte_read (buf : Buffer) (i : Nat) (s : State) (k : Byte → Out) (b : Byte)
    (hi : i < Config.bufSize) (hb : (s.buffer buf).read i = some b) : withByte buf i s k = k b := by
  rw [withByte, if_pos hi, hb]

theorem withField_eq_next (i : Nat) (s : State) (k : Half → Out) (t : State) :
    withField i s k = .next t ↔
      i + 1 < Config.bufSize ∧ ∃ lo hi, s.x.read i = some lo ∧ s.x.read (i + 1) = some hi ∧
        k (u16 lo hi) = .next t := by
  rw [withField, withByte_eq_next]
  simp only [withByte_eq_next, State.buffer]
  constructor
  · rintro ⟨-, lo, hlo, hi, h, hhi, hk⟩; exact ⟨hi, lo, h, hlo, hhi, hk⟩
  · rintro ⟨hi, lo, h, hlo, hhi, hk⟩; exact ⟨by omega, lo, hlo, hi, h, hhi, hk⟩

theorem withBytes_eq_next (start n : Nat) (s : State) (k : List Byte → Out) (t : State) :
    withBytes start n s k = .next t ↔ ∃ bs, s.x.readBytes start n = some bs ∧ k bs = .next t := by
  rw [withBytes]
  cases s.x.readBytes start n <;> simp

theorem storeByte_eq_next (i : Nat) (b : Byte) (s : State) (k : State → Out) (t : State) :
    storeByte i b s k = .next t ↔
      i < Config.bufSize ∧ k { s with x := s.x.write i b } = .next t := by
  rw [storeByte]
  split <;> simp [*]

/-- A store inside the buffer goes on. -/
theorem storeByte_inside (i : Nat) (b : Byte) (s : State) (k : State → Out)
    (hi : i < Config.bufSize) : storeByte i b s k = k { s with x := s.x.write i b } := by
  rw [storeByte, if_pos hi]

theorem onRequest_idle (s : State) (k : State → Out) (h : s.fsm = .idle) : onRequest s k = k s := by
  rw [onRequest, h]

theorem onRequest_dead (s : State) (k : State → Out) (h : s.fsm = .dead) :
    onRequest s k = .next (refuseRequest .transportError s) := by
  rw [onRequest, h]

theorem onRequest_busy (s : State) (k : State → Out) (h : s.fsm.busy = true) :
    onRequest s k = .next s := by
  rw [onRequest]
  cases hf : s.fsm <;> simp_all [Fsm.busy]

@[simp] theorem afterError_transportError : afterError .transportError = .dead := rfl

theorem afterError_other {e : ErrCode} (h : e ≠ .transportError) : afterError e = .idle := by
  rw [afterError, if_neg h]

/-! ## The telemetry decoder -/

theorem seekFirst_eq_next (b : Byte) (s t : State) :
    seekFirst b s = .next t ↔
      (b = Config.tlmHdr ∧ t = { s with x := s.x.write 0 b, cnt := 1#8, fsm := .tSeek1 }) ∨
      (b ≠ Config.tlmHdr ∧ t = { s with fsm := .tSeek0 }) := by
  rw [seekFirst]
  split
  · next h => simp [h, storeByte_eq_next, Config.bufSize, next_eq_next, -Host.Outcome.next.injEq]
  · next h => simp [h, next_eq_next, -Host.Outcome.next.injEq]

theorem seekSecond_eq_next (b : Byte) (s t : State) :
    seekSecond b s = .next t ↔
      (b = Config.tlmHdr ∧
        t = { s with x := s.x.write 1 b, cnt := 2#8, acc := 0xB2#8, fsm := .tRead }) ∨
      (b ≠ Config.tlmHdr ∧ t = emit .tlmHdrInvalid { s with cnt := 0#8, fsm := .tSeek0 }) := by
  rw [seekSecond]
  split
  · next h => simp [h, storeByte_eq_next, Config.bufSize, next_eq_next, -Host.Outcome.next.injEq]
  · next h => simp [h, next_eq_next, -Host.Outcome.next.injEq]

theorem readBody_eq_next (b : Byte) (s t : State) :
    readBody b s = .next t ↔ s.cnt.toNat < Config.bufSize ∧
      t = { s with x := s.x.write s.cnt.toNat b, acc := s.acc + b, cnt := s.cnt + 1#8, fsm := .tRead } := by
  rw [readBody, storeByte_eq_next]
  simp [next_eq_next, -Host.Outcome.next.injEq]

theorem readLast_eq_next (b : Byte) (s t : State) :
    readLast b s = .next t ↔ ∃ d0 d1 s0 s1 t0 t1,
      s.x.read 2 = some d0 ∧ s.x.read 3 = some d1 ∧ s.x.read 4 = some s0 ∧ s.x.read 5 = some s1 ∧
      s.x.read 6 = some t0 ∧ s.x.read 7 = some t1 ∧
      t = reportTelemetry (u16 d0 d1) (u16 s0 s1) (u16 t0 t1) (csumMatches s.acc b)
        { s with x := s.x.write 8 b } := by
  simp only [readLast, withField_eq_next, storeByte_eq_next, Config.bufSize]
  constructor
  · rintro ⟨-, d0, d1, h0, h1, -, s0, s1, h2, h3, -, t0, t1, h4, h5, -, h⟩
    exact ⟨d0, d1, s0, s1, t0, t1, h0, h1, h2, h3, h4, h5, by cases h; rfl⟩
  · rintro ⟨d0, d1, s0, s1, t0, t1, h0, h1, h2, h3, h4, h5, rfl⟩
    exact ⟨by omega, d0, d1, h0, h1, by omega, s0, s1, h2, h3, by omega, t0, t1, h4, h5, by omega, rfl⟩

theorem readTelemetry_eq_next (b : Byte) (s t : State) :
    readTelemetry b s = .next t ↔
      (s.cnt.toNat < 8 ∧ readBody b s = .next t) ∨ (s.cnt.toNat = 8 ∧ readLast b s = .next t) := by
  rw [readTelemetry]
  by_cases h1 : s.cnt.toNat < 8
  · have h2 : s.cnt.toNat ≠ 8 := by omega
    simp [h1, h2]
  · by_cases h2 : s.cnt.toNat = 8 <;> simp [h1, h2]

/-! ## The sender -/

theorem sendFinished_eq_next (s t : State) :
    sendFinished s = .next t ↔
      (s.op = .send ∧ t = emit .sendDone { s with fsm := .idle }) ∨
      ((s.op = .setfreq ∨ s.op = .getver) ∧ t = { s with fsm := .rHdr }) := by
  rw [sendFinished]
  cases h : s.op <;> simp [next_eq_next, -Host.Outcome.next.injEq]

theorem sendByte_eq_next (s t : State) :
    sendByte s = .next t ↔ s.txIdx.toNat < Config.bufSize ∧ ∃ b, s.t.read s.txIdx.toNat = some b ∧
      ((s.txIdx.toNat + 1 < s.txLen.toNat ∧
          t = { txByte b s with txIdx := s.txIdx + 1#8, fsm := .cSend }) ∨
       (s.txIdx.toNat + 1 = s.txLen.toNat ∧
          sendFinished { txByte b s with txIdx := s.txIdx + 1#8 } = .next t)) := by
  rw [sendByte, withByte_eq_next]
  refine and_congr_right fun _ => exists_congr fun b => and_congr_right fun _ => ?_
  by_cases h1 : s.txIdx.toNat + 1 < s.txLen.toNat
  · have h2 : s.txIdx.toNat + 1 ≠ s.txLen.toNat := by omega
    simp [h1, h2, next_eq_next, -Host.Outcome.next.injEq]
  · by_cases h2 : s.txIdx.toNat + 1 = s.txLen.toNat <;> simp [h1, h2]

theorem takeTxAccept_eq_next (s t : State) :
    takeTxAccept s = .next t ↔
      (s.fsm = .cSend ∧ sendByte s = .next t) ∨ (s.fsm ≠ .cSend ∧ t = s) := by
  rw [takeTxAccept]
  split <;> simp [*, next_eq_next, -Host.Outcome.next.injEq]

theorem takeTxFail_eq_next (s t : State) :
    takeTxFail s = .next t ↔
      (s.fsm = .cSend ∧ t = raiseError .transportError false s) ∨ (s.fsm ≠ .cSend ∧ t = s) := by
  rw [takeTxFail]
  split <;> simp [*, next_eq_next, -Host.Outcome.next.injEq]

/-! ## The response receiver -/

theorem receiveHeader_eq_next (b : Byte) (s t : State) :
    receiveHeader b s = .next t ↔
      (b = Config.cmdHdr ∧
        t = { s with x := s.x.write 0 b, cnt := 1#8, acc := Config.cmdHdr, fsm := .rLen }) ∨
      (b ≠ Config.cmdHdr ∧ t = raiseError .invalidHeader false s) := by
  rw [receiveHeader]
  split
  · next h => simp [h, storeByte_eq_next, Config.bufSize, next_eq_next, -Host.Outcome.next.injEq]
  · next h => simp [h, next_eq_next, -Host.Outcome.next.injEq]

theorem receiveLength_eq_next (b : Byte) (s t : State) :
    receiveLength b s = .next t ↔
      (Config.lenMin ≤ b.toNat ∧ t = { s with
        x := s.x.write 1 b, cnt := 2#8, len := b, acc := s.acc + b, fsm := .rPay }) ∨
      (b.toNat < Config.lenMin ∧ t = raiseError .invalidLength false s) := by
  rw [receiveLength]
  split
  · next h => simp [h, storeByte_eq_next, Config.bufSize, next_eq_next, Nat.not_lt.mpr h, -Host.Outcome.next.injEq]
  · next h => simp [h, Nat.not_le.mp h, next_eq_next, -Host.Outcome.next.injEq]

theorem receivePayload_eq_next (b : Byte) (s t : State) :
    receivePayload b s = .next t ↔ s.cnt.toNat < Config.bufSize ∧
      t = { s with
        x := s.x.write s.cnt.toNat b, acc := s.acc + b, cnt := s.cnt + 1#8,
        fsm := if s.cnt.toNat + 2 = s.len.toNat then .rCsum else .rPay } := by
  rw [receivePayload, storeByte_eq_next]
  simp [next_eq_next, -Host.Outcome.next.injEq]

theorem finishRecv_eq_next (id : Byte) (s t : State) :
    finishRecv id s = .next t ↔ ∃ data, s.x.readBytes 3 (s.len.toNat - 4) = some data ∧
      t = emit (.recvDone id data) (recordResponse id s) := by
  rw [finishRecv, withBytes_eq_next]
  simp [next_eq_next, -Host.Outcome.next.injEq]

theorem finishSetfreq_eq_next (id : Byte) (s t : State) :
    finishSetfreq id s = .next t ↔ t = emit .freqDone (recordResponse id s) := by
  simp [finishSetfreq, next_eq_next, -Host.Outcome.next.injEq]

theorem finishGetver_eq_next (id : Byte) (s t : State) :
    finishGetver id s = .next t ↔
      (s.len.toNat < 7 ∧ t = raiseError .invalidLength false s) ∨
      (7 ≤ s.len.toNat ∧ ∃ p m j, s.x.read 3 = some p ∧ s.x.read 4 = some m ∧ s.x.read 5 = some j ∧
        t = emit (.verDone p m j) { recordResponse id s with
          verPatch := p, verMinor := m, verMajor := j, verValid := true }) := by
  rw [finishGetver]
  split
  · next h => simp [h, Nat.not_le.mpr h, next_eq_next, -Host.Outcome.next.injEq]
  · next h =>
    simp only [withByte_eq_next, Config.bufSize, State.buffer]
    constructor
    · rintro ⟨-, p, hp, -, m, hm, -, j, hj, ht⟩
      exact .inr ⟨by omega, p, m, j, hp, hm, hj, by cases ht; rfl⟩
    · rintro (⟨h', -⟩ | ⟨-, p, m, j, hp, hm, hj, rfl⟩)
      · exact absurd h' h
      · exact ⟨by omega, p, hp, by omega, m, hm, by omega, j, hj, rfl⟩

theorem correlate_eq_next (id : Byte) (s : State) (k : Byte → State → Out) (t : State) :
    correlate id s k = .next t ↔
      (id ≠ s.reqId ∧ t = raiseError .unknownCommand true s) ∨ (id = s.reqId ∧ k id s = .next t) := by
  rw [correlate]
  split <;> simp_all [next_eq_next, -Host.Outcome.next.injEq]

theorem finishResponse_eq_next (id : Byte) (s t : State) :
    finishResponse id s = .next t ↔
      (s.op = .recv ∧ finishRecv id s = .next t) ∨
      (s.op = .setfreq ∧ correlate id s finishSetfreq = .next t) ∨
      (s.op = .getver ∧ correlate id s finishGetver = .next t) := by
  rw [finishResponse]
  cases h : s.op <;> simp

theorem receiveChecksum_eq_next (b : Byte) (s t : State) :
    receiveChecksum b s = .next t ↔ s.cnt.toNat < Config.bufSize ∧ ∃ id, s.x.read 2 = some id ∧
      ((frameVerdict id s.acc b = .unknownCommand ∧
          t = raiseError .unknownCommand false { s with x := s.x.write s.cnt.toNat b }) ∨
       (frameVerdict id s.acc b = .badChecksum ∧
          t = raiseError .invalidChecksum false { s with x := s.x.write s.cnt.toNat b }) ∨
       (frameVerdict id s.acc b = .good ∧
          finishResponse id { s with x := s.x.write s.cnt.toNat b, cnt := s.len } = .next t)) := by
  simp only [receiveChecksum, withByte_eq_next, storeByte_eq_next, State.buffer, Config.bufSize]
  constructor
  · rintro ⟨-, id, hid, hc, h⟩
    refine ⟨hc, id, hid, ?_⟩
    cases hv : frameVerdict id s.acc b <;> simp_all
  · rintro ⟨hc, id, hid, h⟩
    refine ⟨by omega, id, hid, hc, ?_⟩
    cases hv : frameVerdict id s.acc b <;> simp_all

/-! ## Events -/

theorem takeRxByte_eq_next (b : Byte) (s t : State) :
    takeRxByte b s = .next t ↔
      (s.fsm.receiving = true ∧ receiveStep b (consume b s) = .next t) ∨
      (s.fsm.receiving = false ∧ t = s) := by
  rw [takeRxByte]
  split <;> simp_all [next_eq_next, -Host.Outcome.next.injEq]

theorem takeRxTimeout_eq_next (s t : State) :
    takeRxTimeout s = .next t ↔
      (s.fsm.receiving = true ∧ t = raiseError .serialTimeout false s) ∨
      (s.fsm.receiving = false ∧ t = s) := by
  rw [takeRxTimeout]
  split <;> simp_all [next_eq_next, -Host.Outcome.next.injEq]

@[simp] theorem takeRxBytes_nil (s : State) : takeRxBytes [] s = .next s := rfl

theorem takeRxBytes_cons (b : Byte) (bs : List Byte) (s : State) (h : s.fsm.receiving = true) :
    takeRxBytes (b :: bs) s = andThen (takeRxByte b s) (takeRxBytes bs) := by
  rw [takeRxBytes, if_pos h]

/-- A block that waits for no byte takes none. -/
theorem takeRxBytes_not_receiving (bs : List Byte) (s : State) (h : s.fsm.receiving = false) :
    takeRxBytes bs s = .next s := by
  cases bs with
  | nil => rfl
  | cons b bs => rw [takeRxBytes, if_neg (by simp [h])]

theorem takeRxBytes_append (as bs : List Byte) (s : State) :
    takeRxBytes (as ++ bs) s = andThen (takeRxBytes as s) (takeRxBytes bs) := by
  induction as generalizing s with
  | nil => rfl
  | cons a as ih =>
    cases h : s.fsm.receiving with
    | false => simp [takeRxBytes_not_receiving _ _ h]
    | true =>
      rw [List.cons_append, takeRxBytes_cons _ _ _ h, takeRxBytes_cons _ _ _ h]
      cases takeRxByte a s with
      | next u => exact ih u
      | fault f => rfl
      | refused r => rfl

theorem cancelOperation_idle (s : State) (h : s.fsm = .idle) : cancelOperation s = s := by
  rw [cancelOperation, h]

theorem cancelOperation_dead (s : State) (h : s.fsm = .dead) : cancelOperation s = s := by
  rw [cancelOperation, h]

theorem cancelOperation_busy (s : State) (h : s.fsm.busy = true) :
    cancelOperation s = { s with cnt := 0#8, respValid := false, fsm := .idle } := by
  rw [cancelOperation]
  cases hf : s.fsm <;> simp_all [Fsm.busy]

/-- The visible part of `x` is empty when `cnt` is 0. -/
theorem visibleX_zero (s : State) (h : s.cnt = 0#8) : s.visibleX = some [] := by
  rw [State.visibleX, h]; rfl

/-- All the bytes of a frame are to come when none is stored. -/
theorem bytesToCome_start (frame : List Byte) (s : State) (h : s.cnt = 0#8) :
    bytesToCome frame s = frame := by
  rw [bytesToCome, visibleX_zero s h, h]; simp

end Sys2Proof.Machine
end

