-- ==== Sys2Proof/Laws/Frames.lean ====
section
/-! SUPPORT. Laws/Frames.lean: frames and the instructions that carry them: what executing an encoded
frame is, how the visible bytes grow, and how runs of events compose. -/

namespace Sys2Proof.Machine

/-- A byte names a command exactly if it is that command's byte. -/
theorem cmdOfByte_eq_some (b : Byte) (c : CommandId) : cmdOfByte b = some c ↔ b = cmdByte c := by
  constructor
  · intro h
    rw [cmdOfByte] at h
    split_ifs at h with h1 h2 h3 <;> cases h <;> assumption
  · rintro rfl
    cases c <;> rfl

/-- An instruction encoded on the RX stream takes the bytes of its frame. -/
theorem exec_of_encode_rx (i : Instr) (f : List Byte) (s : State) (h : encode i = .rx f) :
    exec i s = receiveFrame f s := by
  cases i <;> simp [encode] at h <;> subst h <;> rfl

/-- An instruction encoded on the TX stream hands over the bytes of its frame. -/
theorem exec_of_encode_tx (i : Instr) (f : List Byte) (s : State) (h : encode i = .tx f) :
    exec i s = transmitFrame f s := by
  cases i <;> simp [encode] at h <;> subst h <;> rfl

/-- One byte taken by a block that waits for it. -/
theorem takeRxBytes_singleton (b : Byte) (s : State) (h : s.fsm.receiving = true) :
    takeRxBytes [b] s = takeRxByte b s := by
  rw [takeRxBytes_cons _ _ _ h]
  cases takeRxByte b s <;> rfl

/-- A frame all of whose bytes but the last are stored: its last byte is taken. -/
theorem receiveFrame_last (f : List Byte) (b : Byte) (s : State) (hv : s.visibleX = some f)
    (hl : f.length = s.cnt.toNat) (h : s.fsm.receiving = true) :
    receiveFrame (f ++ [b]) s = takeRxByte b s := by
  rw [receiveFrame, bytesToCome, if_pos, ← hl, List.drop_left, takeRxBytes_singleton b s h]
  rw [hv, ← hl, List.take_left]

/-- Storing a byte behind the visible ones makes it visible. -/
theorem visibleX_store (s t : State) (f : List Byte) (b : Byte) (h : s.visibleX = some f)
    (hx : t.x = s.x.write s.cnt.toNat b) (hc : t.cnt.toNat = s.cnt.toNat + 1) :
    t.visibleX = some (f ++ [b]) := by
  rw [State.visibleX, hx, hc]
  exact Memory.readBytes_write_end _ _ _ _ h

/-- A loaded frame is the visible part of `t`. -/
theorem visibleT_loadFrame (f : List Byte) (s : State) (hl : f.length ≤ Config.bufSize) :
    (loadFrame f s).visibleT = some f := by
  have h : (BitVec.ofNat 8 f.length).toNat = f.length := by
    simp only [Config.bufSize] at hl
    simp; omega
  rw [State.visibleT, loadFrame_t, loadFrame_txLen, h, Memory.readBytes_writeBytes]

/-- Runs of events compose. -/
theorem takeEvents_append (as bs : List Event) (s : State) :
    takeEvents (as ++ bs) s = andThen (takeEvents as s) (takeEvents bs) := by
  induction as generalizing s with
  | nil => rfl
  | cons e as ih =>
    rw [List.cons_append, takeEvents, takeEvents]
    cases takeEvent e s with
    | next u => exact ih u
    | fault f => rfl
    | refused r => rfl

end Sys2Proof.Machine
end

