-- ==== Sys2Proof/Laws/PerInstr.lean ====
section
/-! SUPPORT. Laws/PerInstr.lean: the family FrameLength: the bytes of every well-formed frame are as
many as its format says (30_encoding.md rules R60 to R63), one lemma for each constructor. -/

namespace Sys2Proof.Laws.FrameLength

open Sys2Proof.Machine (requestLen freqParams)

/-- A frame has the length of its format: nine bytes behind a telemetry header, otherwise at least
four bytes, as many as its second byte says. -/
def frameLengthOk (frame : List Byte) : Prop :=
  if frame.head? = some Config.tlmHdr then frame.length = Config.tlmLen
  else Config.lenMin ≤ frame.length ∧ (frame.getD 1 0#8).toNat = frame.length

/-- What the family says of one instruction: a well-formed instruction that is a wire frame has the
length of its format; a host request is no frame. -/
def Statement (i : Instr) : Prop :=
  i.wellFormed = true → match encode i with
    | .host _ => True
    | .rx frame => frameLengthOk frame
    | .tx frame => frameLengthOk frame

theorem request_length (id : Byte) (params : List Byte) (csum : Byte) (h : params.length ≤ 251) :
    frameLengthOk (encodeRequest id params csum) := by
  rw [frameLengthOk, if_neg (by simp [encodeRequest]; decide)]
  simp [encodeRequest, requestLen, Config.lenMin, Config.lenOverhead]
  omega

theorem response_length (len id : Byte) (data : List Byte) (csum : Byte)
    (h : responseFramed len data = true) : frameLengthOk (encodeResponse len id data csum) := by
  rw [responseFramed, Bool.and_eq_true, decide_eq_true_eq, decide_eq_true_eq] at h
  simp only [Config.lenMin, Config.lenOverhead] at h
  rw [frameLengthOk, if_neg (by simp [encodeResponse]; decide)]
  simp [encodeResponse, Config.lenMin]
  omega

theorem params_length {params : List Byte} (h : paramsFit params = true) : params.length ≤ 251 :=
  of_decide_eq_true h

theorem tlmFrame (distance strength temp : Half) (csum : Byte) :
    Statement (.tlmFrame distance strength temp csum) := fun _ => by
  simp [encode, frameLengthOk, encodeTelemetry, Config.tlmLen]

theorem reqGetversion (csum : Byte) : Statement (.reqGetversion csum) :=
  fun _ => request_length _ [] csum (by decide)

theorem reqSoftreset (params : List Byte) (csum : Byte) : Statement (.reqSoftreset params csum) :=
  fun h => request_length _ params csum (params_length h)

theorem reqSamplefreq (freq : Half) (csum : Byte) : Statement (.reqSamplefreq freq csum) :=
  fun _ => request_length _ (freqParams freq) csum (by simp [freqParams])

theorem reqGeneric (id : Byte) (params : List Byte) (csum : Byte) :
    Statement (.reqGeneric id params csum) := fun h =>
  request_length id params csum (params_length (Bool.and_eq_true_iff.mp h).1)

theorem rspGetversion (len : Byte) (data : List Byte) (csum : Byte) :
    Statement (.rspGetversion len data csum) := fun h => response_length len _ data csum h

theorem rspSoftreset (len : Byte) (data : List Byte) (csum : Byte) :
    Statement (.rspSoftreset len data csum) := fun h => response_length len _ data csum h

theorem rspSamplefreq (len : Byte) (data : List Byte) (csum : Byte) :
    Statement (.rspSamplefreq len data csum) := fun h => response_length len _ data csum h

theorem rspGeneric (len id : Byte) (data : List Byte) (csum : Byte) :
    Statement (.rspGeneric len id data csum) := fun h =>
  response_length len id data csum (Bool.and_eq_true_iff.mp h).1

theorem tlm : Statement .tlm := fun _ => trivial

theorem build (cmd plen : Byte) (params : List Byte) : Statement (.build cmd plen params) :=
  fun _ => trivial

theorem send (cmd plen : Byte) (params : List Byte) : Statement (.send cmd plen params) :=
  fun _ => trivial

theorem recv : Statement .recv := fun _ => trivial

theorem setfreq (freq : Half) : Statement (.setfreq freq) := fun _ => trivial

theorem getver : Statement .getver := fun _ => trivial

theorem reservedOp6 : Statement .reservedOp6 := fun _ => trivial

theorem reservedOp7 : Statement .reservedOp7 := fun _ => trivial

end Sys2Proof.Laws.FrameLength
end

