-- ==== Sys2Proof/Tests/Slice0.lean ====
section
/-! SUPPORT. Tests/Slice0.lean: the model's own tests. Expected values are the spec's: the vectors of
95_test_vectors.md, named in each comment, or its encoding tables. The last part shows, for every
statement with hypotheses, concrete states and operands that meet them. -/

namespace Sys2Proof.Tests

open Sys2Proof.Machine Sys2Proof.Safety

/-! ## Helpers -/

/-- The outcome is a next state of which a check holds. -/
def ran (o : Out) (check : State → Bool) : Bool :=
  match o with
  | .next s => check s
  | .fault _ => false
  | .refused _ => false

/-- Seeking telemetry, as after TLM. -/
def seeking : State := { State.reset with fsm := .tSeek0 }

/-- Waiting for the first byte of a response. -/
def waiting (op : Op) (reqId : Byte) : State :=
  { State.reset with fsm := .rHdr, op := op, reqId := reqId }

/-- Transmitting a frame of which `idx` bytes are handed over. -/
def sending (op : Op) (frame : List Byte) (idx : Byte) : State :=
  { State.reset with
    fsm := .cSend, op := op, t := State.reset.t.writeBytes 0 frame,
    txLen := BitVec.ofNat 8 frame.length, txIdx := idx }

/-- Two telemetry header bytes received. -/
def readingTelemetry : State :=
  { State.reset with fsm := .tRead, cnt := 2#8, acc := 0xB2#8, x := [(0, 0x59#8), (1, 0x59#8)] }

/-- Eight telemetry bytes received: `59 59 64 00 C8 00 40 1F` (T4). -/
def ninthByteNext : State :=
  { State.reset with
    fsm := .tRead, cnt := 8#8, acc := 0x3D#8,
    x := [(0, 0x59#8), (1, 0x59#8), (2, 0x64#8), (3, 0#8), (4, 0xC8#8), (5, 0#8), (6, 0x40#8), (7, 0x1F#8)] }

/-- Three bytes `5A 04 id` of a response received. -/
def checksumNext (op : Op) (reqId id : Byte) : State :=
  { State.reset with
    fsm := .rCsum, op := op, reqId := reqId, cnt := 3#8, len := 4#8, acc := 0x5E#8 + id,
    x := [(0, 0x5A#8), (1, 0x04#8), (2, id)] }

/-- Six bytes `5A 07 01 02 03 01` of a response received (S10, H5). -/
def versionNext : State :=
  { State.reset with
    fsm := .rCsum, op := .getver, reqId := 1#8, cnt := 6#8, len := 7#8, acc := 0x68#8,
    x := [(0, 0x5A#8), (1, 0x07#8), (2, 1#8), (3, 2#8), (4, 3#8), (5, 1#8)] }

/-- The state with one clock edge to come. -/
def withEdge (s : State) (p : Pins) : State := { s with inputs := [p] }

/-! ## WellFormed: an ill-formed term for each check -/

theorem test_wf_refuses_252_params : (Instr.reqSoftreset (List.replicate 252 0#8) 0#8).wellFormed = false := by
  decide +kernel

theorem test_wf_refuses_generic_softreset : (Instr.reqGeneric 0x02#8 [] 0x60#8).wellFormed = false := by decide

theorem test_wf_refuses_generic_getversion : (Instr.reqGeneric 0x01#8 [] 0x5F#8).wellFormed = false := by decide

theorem test_wf_refuses_generic_samplefreq :
    (Instr.reqGeneric 0x03#8 [0x64#8, 0#8] 0xC7#8).wellFormed = false := by decide

theorem test_wf_refuses_unknown_request : (Instr.reqGeneric 0x04#8 [] 0x62#8).wellFormed = false := by decide

theorem test_wf_refuses_short_length : (Instr.rspGetversion 3#8 [] 0x5E#8).wellFormed = false := by decide

theorem test_wf_refuses_wrong_length : (Instr.rspSoftreset 5#8 [] 0x61#8).wellFormed = false := by decide

theorem test_wf_refuses_known_generic : (Instr.rspGeneric 4#8 0x03#8 [] 0x61#8).wellFormed = false := by decide

theorem test_wf_refuses_param_count : (Instr.build 0x01#8 2#8 [0#8]).wellFormed = false := by decide

theorem test_legal_refuses_bad_checksums :
    (Instr.reqGetversion 0x60#8).legal = false ∧ (Instr.reqSoftreset [] 0x61#8).legal = false ∧
    (Instr.reqSamplefreq 0x1234#16 0xAA#8).legal = false ∧ (Instr.reqGeneric 0x01#8 [0#8] 0#8).legal = false ∧
    (Instr.rspGetversion 4#8 [] 0#8).legal = false ∧ (Instr.rspSoftreset 4#8 [] 0#8).legal = false ∧
    (Instr.rspSamplefreq 4#8 [] 0#8).legal = false ∧ (Instr.rspGeneric 4#8 0x03#8 [] 0#8).legal = false := by
  decide

theorem test_legal_refuses_unknown_id :
    (Instr.build 0x04#8 0#8 []).legal = false ∧ (Instr.send 0x00#8 0#8 []).legal = false ∧
    (Instr.rspGeneric 4#8 0xFF#8 [] 0x5D#8).legal = false := by decide

theorem test_legal_refuses_reserved : Instr.reservedOp6.legal = false ∧ Instr.reservedOp7.legal = false := by
  decide

theorem test_legal_accepts :
    (Instr.reqSamplefreq 0x1234#16 0xA9#8).legal = true ∧ (Instr.build 0x03#8 2#8 [0x64#8, 0#8]).legal = true ∧
    (Instr.rspGetversion 7#8 [2#8, 3#8, 1#8] 0x68#8).legal = true := by decide

/-! ## Decoding: words written out from 30_encoding.md rules R61 to R65 and R76 -/

theorem test_decode_tlmFrame :
    decode (.rx [0x59, 0x59, 0x2C, 0x01, 0x10, 0x27, 0x48, 0x09, 0x67]) =
      .ok (.tlmFrame 300#16 10000#16 2376#16 0x67#8) := by decide

theorem test_decode_reqGetversion : decode (.tx [0x5A, 0x04, 0x01, 0x5F]) = .ok (.reqGetversion 0x5F#8) := by
  decide

theorem test_decode_reqSoftreset : decode (.tx [0x5A, 0x04, 0x02, 0x60]) = .ok (.reqSoftreset [] 0x60#8) := by
  decide

theorem test_decode_reqSamplefreq :
    decode (.tx [0x5A, 0x06, 0x03, 0xFA, 0x00, 0x5D]) = .ok (.reqSamplefreq 250#16 0x5D#8) := by decide

theorem test_decode_reqGeneric :
    decode (.tx [0x5A, 0x05, 0x01, 0xAA, 0x0A]) = .ok (.reqGeneric 0x01#8 [0xAA#8] 0x0A#8) := by decide

theorem test_decode_rspGetversion :
    decode (.rx [0x5A, 0x07, 0x01, 0x09, 0x00, 0x03, 0x6E]) =
      .ok (.rspGetversion 7#8 [9#8, 0#8, 3#8] 0x6E#8) := by decide

theorem test_decode_rspSoftreset : decode (.rx [0x5A, 0x04, 0x02, 0x60]) = .ok (.rspSoftreset 4#8 [] 0x60#8) := by
  decide

theorem test_decode_rspSamplefreq :
    decode (.rx [0x5A, 0x06, 0x03, 0x34, 0x12, 0xA9]) = .ok (.rspSamplefreq 6#8 [0x34#8, 0x12#8] 0xA9#8) := by
  decide

theorem test_decode_rspGeneric : decode (.rx [0x5A, 0x04, 0x04, 0x62]) = .ok (.rspGeneric 4#8 4#8 [] 0x62#8) := by
  decide

theorem test_decode_host_codes :
    [0, 1, 2, 3, 4, 5, 6, 7].map (decodeTableWord 8) =
      [some .tlm, some (.build 0#8 0#8 []), some (.send 0#8 0#8 []), some .recv, some (.setfreq 0#16),
        some .getver, some .reservedOp6, some .reservedOp7] := by decide +kernel

theorem test_decode_refuses :
    decode (.tx [0x5B, 0x04, 0x01, 0x5F]) = .error .noCommandHeader ∧
    decode (.tx [0x5A, 0x03, 0x01, 0x5F]) = .error .lengthBelowFour ∧
    decode (.tx [0x5A, 0x04, 0x04, 0x62]) = .error .unknownCommand ∧
    decode (.tx [0x5A, 0x05, 0x01, 0x5F]) = .error .truncated ∧
    decode (.rx [0x59, 0x58, 0, 0, 0, 0, 0, 0, 0]) = .error .noTelemetryHeader := by decide

theorem test_decode_table_words :
    decodeTableWord 16 0x5959 = some (.tlmFrame 0#16 0#16 0#16 0#8) ∧
    decodeTableWord 24 0x5A0401 = some (.reqGetversion 0#8) ∧
    decodeTableWord 24 0x5A0603 = some (.reqSamplefreq 0#16 0#8) ∧
    decodeTableWord 24 0x5A0003 = some (.rspSamplefreq 0#8 [] 0#8) := by decide +kernel

/-! ## Pure functions -/

/-- Vectors CK1, CK2, CK3, CK5, CK6, CK7, CK10. -/
theorem test_checksum :
    checksum [] = 0#8 ∧ checksum [0x5A, 0x04, 0x01] = 0x5F#8 ∧ checksum [0xFF, 0xFF, 0xFF, 0xFF] = 0xFC#8 ∧
    checksum [0x59, 0x59] = 0xB2#8 ∧ checksum [0x59, 0x59, 0xFF, 0xFF, 0xFF, 0xFF, 0xFF, 0xFF] = 0xAC#8 ∧
    checksum [0x5A, 0x06, 0x03, 0x64, 0x00] = 0xC7#8 ∧ checksum [0x80, 0x80] = 0x00#8 := by decide

/-- S3, S4, T6, T7, T10: the temperature in eighths of a degree. -/
theorem test_temperature :
    (tempQ3 8000#16).toInt = 5952 ∧ (tempQ3 2048#16).toInt = 0 ∧ (tempQ3 0#16).toInt = -2048 ∧
    (tempQ3 65535#16).toInt = 63487 ∧ (tempQ3 2376#16).toInt = 328 := by decide

/-- The results of `parse_frame` that 95_test_vectors.md section 2.4 lists. -/
theorem test_parseFrame :
    parseFrame [0x59] = .error .invalidHeader ∧ parseFrame [0x5A, 0x03] = .error .invalidLength ∧
    parseFrame [0x5A, 0x04, 0x03, 0x61, 0x99, 0x99] = .ok (3#8, []) ∧
    parseFrame [0x5A, 0x05, 0x01, 0xAA, 0x0A] = .ok (1#8, [0xAA#8]) ∧
    parseFrame [0x5A, 0x05, 0x01, 0xAA, 0x0B] = .error .invalidChecksum ∧
    parseFrame [0x5A, 0x04, 0xFF, 0x00] = .error .unknownCommand ∧
    parseFrame [0x5A, 0x07, 0x01, 0x02, 0x03, 0x01] = .error .serialTimeout ∧
    parseFrame [] = .error .serialTimeout := by decide

/-! ## One step of each instruction -/

/-- T4: a good frame. -/
theorem test_tlmFrame_good :
    ran (exec (.tlmFrame 100#16 200#16 8000#16 0x3D#8) seeking) (fun s =>
      s.dist == 100#16 && s.strength == 200#16 && s.tempRaw == 8000#16 && s.csumOk && s.acc == 0x3D#8 &&
      s.cnt == 0#8 && decide (s.fsm = .tSeek0)) = true := by decide

/-- S3: the same frame with a wrong checksum byte is reported with `csum_ok = 0`. -/
theorem test_tlmFrame_mismatch :
    ran (exec (.tlmFrame 100#16 200#16 8000#16 0xCB#8) seeking) (fun s =>
      s.tlmValid && !s.csumOk && decide (s.results = [.tlmFrame 100#16 200#16 8000#16 false]) &&
      decide (s.err = .none)) = true := by decide

/-- H5: the request of GETVER leads to the receive phase with no result. -/
theorem test_reqGetversion :
    ran (exec (.reqGetversion 0x5F#8) (sending .getver [0x5A, 0x04, 0x01, 0x5F] 0#8)) (fun s =>
      decide (s.fsm = .rHdr) && decide (s.txStream = [0x5A, 0x04, 0x01, 0x5F]) && decide (s.results = [])) =
      true := by decide

/-- E11: a SoftReset request with parameters, handed over from the fourth byte on. -/
theorem test_reqSoftreset :
    ran (exec (.reqSoftreset [0xAA, 0xBB, 0xCC] 0x94#8)
        (sending .send [0x5A, 0x07, 0x02, 0xAA, 0xBB, 0xCC, 0x94] 3#8)) (fun s =>
      decide (s.fsm = .idle) && decide (s.txStream = [0xAA, 0xBB, 0xCC, 0x94]) && s.txIdx == 7#8 &&
      decide (s.results = [.sendDone])) = true := by decide

/-- H2: the request of SETFREQ, low byte first. -/
theorem test_reqSamplefreq :
    ran (exec (.reqSamplefreq 0x1234#16 0xA9#8)
        (sending .setfreq [0x5A, 0x06, 0x03, 0x34, 0x12, 0xA9] 0#8)) (fun s =>
      decide (s.fsm = .rHdr) && decide (s.txStream = [0x5A, 0x06, 0x03, 0x34, 0x12, 0xA9])) = true := by decide

/-- A GetVersion request with a parameter (R65: the encoder takes any parameters). -/
theorem test_reqGeneric :
    ran (exec (.reqGeneric 0x01#8 [0xAA] 0x0A#8) (sending .send [0x5A, 0x05, 0x01, 0xAA, 0x0A] 4#8)) (fun s =>
      decide (s.fsm = .idle) && decide (s.txStream = [0x0A]) && decide (s.results = [.sendDone])) = true := by
  decide

/-- H5: patch, minor, major in the order of the wire. -/
theorem test_rspGetversion_getver :
    ran (exec (.rspGetversion 7#8 [2#8, 3#8, 1#8] 0x68#8) (waiting .getver 1#8)) (fun s =>
      s.verPatch == 2#8 && s.verMinor == 3#8 && s.verMajor == 1#8 && s.verValid && s.respLen == 3#8 &&
      s.cnt == 7#8 && decide (s.results = [.verDone 2#8 3#8 1#8])) = true := by decide

/-- H7: fewer than three data bytes. -/
theorem test_rspGetversion_short :
    ran (exec (.rspGetversion 6#8 [2#8, 3#8] 0x66#8) (waiting .getver 1#8)) (fun s =>
      decide (s.err = .invalidLength) && !s.errCorr && s.cnt == 0#8 && !s.verValid && s.acc == 0x66#8) = true := by
  decide

/-- RV11: RECV takes a SoftReset response. -/
theorem test_rspSoftreset_recv :
    ran (exec (.rspSoftreset 4#8 [] 0x60#8) (waiting .recv 0#8)) (fun s =>
      s.respId == 2#8 && s.respLen == 0#8 && s.respValid && decide (s.results = [.recvDone 2#8 []])) = true := by
  decide

/-- H11: a SoftReset response fails the correlation of GETVER. -/
theorem test_rspSoftreset_correlation :
    ran (exec (.rspSoftreset 4#8 [] 0x60#8) (waiting .getver 1#8)) (fun s =>
      decide (s.err = .unknownCommand) && s.errCorr && decide (s.results = [.error .unknownCommand true])) =
      true := by decide

/-- H1: the answer to SETFREQ. -/
theorem test_rspSamplefreq :
    ran (exec (.rspSamplefreq 4#8 [] 0x61#8) (waiting .setfreq 3#8)) (fun s =>
      s.respId == 3#8 && s.respValid && s.cnt == 4#8 && decide (s.results = [.freqDone])) = true := by decide

/-- RV6's kind of error: a wrong checksum byte of a known id. -/
theorem test_rspSamplefreq_bad_checksum :
    ran (exec (.rspSamplefreq 4#8 [] 0x62#8) (waiting .setfreq 3#8)) (fun s =>
      decide (s.err = .invalidChecksum) && s.cnt == 0#8 && decide (s.fsm = .idle)) = true := by decide

/-- RV7: an unknown id with a wrong checksum is reported as UnknownCommand. -/
theorem test_rspGeneric :
    ran (exec (.rspGeneric 4#8 0xFF#8 [] 0#8) (waiting .recv 0#8)) (fun s =>
      decide (s.err = .unknownCommand) && !s.errCorr && s.acc == 0x5D#8 && s.len == 4#8) = true := by decide

/-- TLM clears the error registers and hides an earlier response (X8). -/
theorem test_tlm :
    ran (exec .tlm { State.reset with err := .invalidHeader, op := .recv, cnt := 8#8, respValid := true })
      (fun s => decide (s.fsm = .tSeek0) && decide (s.op = .tlm) && decide (s.err = .none) && s.cnt == 0#8 &&
        !s.respValid) = true := by decide

/-- E2. -/
theorem test_build :
    ran (exec (.build 3#8 2#8 [0x64, 0x00]) State.reset) (fun s =>
      decide (s.visibleT = some [0x5A, 0x06, 0x03, 0x64, 0x00, 0xC7]) && decide (s.fsm = .idle) &&
      decide (s.results = [.buildDone])) = true := by decide

/-- E4: an id outside the enumeration. -/
theorem test_build_bad_id :
    ran (exec (.build 4#8 0#8 []) State.reset) (fun s =>
      decide (s.err = .badRequest) && decide (s.op = .tlm) && s.txLen == 0#8) = true := by decide

/-- E11, acceptance: nothing is sent in this step. -/
theorem test_send :
    ran (exec (.send 2#8 3#8 [0xAA, 0xBB, 0xCC]) State.reset) (fun s =>
      decide (s.visibleT = some [0x5A, 0x07, 0x02, 0xAA, 0xBB, 0xCC, 0x94]) && decide (s.fsm = .cSend) &&
      decide (s.out = [])) = true := by decide

/-- E12: 252 parameters. -/
theorem test_send_too_long :
    ran (exec (.send 1#8 252#8 []) State.reset) (fun s =>
      decide (s.err = .badRequest) && decide (s.fsm = .idle)) = true := by decide

theorem test_recv :
    ran (exec .recv State.reset) (fun s => decide (s.fsm = .rHdr) && decide (s.op = .recv)) = true := by decide

/-- P1, step 5. -/
theorem test_setfreq :
    ran (exec (.setfreq 250#16) State.reset) (fun s =>
      decide (s.visibleT = some [0x5A, 0x06, 0x03, 0xFA, 0x00, 0x5D]) && s.reqId == 3#8 &&
      decide (s.fsm = .cSend)) = true := by decide

/-- P1, step 2; an earlier version is invalidated (R157). -/
theorem test_getver :
    ran (exec .getver { State.reset with verValid := true }) (fun s =>
      decide (s.visibleT = some [0x5A, 0x04, 0x01, 0x5F]) && s.reqId == 1#8 && !s.verValid) = true := by decide

/-- E10. -/
theorem test_reservedOp6 :
    ran (exec .reservedOp6 State.reset) (fun s => decide (s.results = [.error .badRequest false])) = true := by
  decide

/-- E8: in DEAD an ill-formed request is refused with TransportError. -/
theorem test_reservedOp7_dead :
    ran (exec .reservedOp7 { State.reset with fsm := .dead, err := .transportError }) (fun s =>
      decide (s.results = [.error .transportError false]) && decide (s.fsm = .dead)) = true := by decide

/-! ## Edges -/

/-- X11: a timeout goes before a byte at the same edge. -/
theorem test_timeout_before_byte :
    ran (step (withEdge (waiting .recv 0#8) { quietPins with rxValid := true, rxData := 0x5A#8, rxTimeout := true }))
      (fun s => decide (s.err = .serialTimeout) && decide (s.rxLog = [])) = true := by decide +kernel

/-- X12: reset goes before a request at the same edge. -/
theorem test_reset_before_request :
    ran (step (withEdge State.reset { quietPins with rst := true, opValid := true })) (fun s =>
      decide (s.fsm = .idle) && decide (s.out = [])) = true := by decide +kernel

/-- A table word placed behind reset runs as the first instruction. -/
theorem test_withFetchWord :
    ran (step (State.reset.withFetchWord 8 4)) (fun s =>
      decide (s.op = .setfreq) && decide (s.fsm = .cSend)) = true ∧
    ran (step (State.reset.withFetchWord 16 0x5959)) (fun s => s.tlmValid && !s.csumOk) = true ∧
    ran (step (State.reset.withFetchWord 24 0x5A0401)) (fun s => decide (s.txStream = [0#8])) = true ∧
    ran (step (State.reset.withFetchWord 24 0x5A0003)) (fun s => decide (s.err = .invalidLength)) = true := by
  decide +kernel

/-! ## Witnesses: states and operands that meet the hypotheses of the statements -/

/-- A well-formed RECV of the response `5A 04 03 61` has ended (RV4). -/
def responseHeld : State :=
  { State.reset with
    op := .recv, cnt := 4#8, len := 4#8, acc := 0x61#8, respId := 3#8, respLen := 0#8, respValid := true,
    x := [(0, 0x5A#8), (1, 0x04#8), (2, 0x03#8), (3, 0x61#8)] }

/-- The request of GETVER waits for its last byte to be taken (P1, step 3). -/
def lastByteNext : State :=
  { State.reset with
    fsm := .cSend, op := .getver, reqId := 1#8, txLen := 4#8, txIdx := 3#8,
    t := [(0, 0x5A#8), (1, 0x04#8), (2, 0x01#8), (3, 0x5F#8)] }

/-- The session is over (E7). -/
def sessionOver : State := { State.reset with fsm := .dead, err := .transportError }

/-- No clause of the invariant reads the edges still to come. -/
theorem inv_withInputs {s : State} (h : Inv s) (inputs : List Pins) : Inv { s with inputs := inputs } :=
  let ⟨⟨b1, b2, b3, b4⟩, ⟨q1, q2⟩, r, ⟨e1, e2, e3⟩, ⟨u1, u2, u3, u4⟩, f⟩ := h
  ⟨⟨b1, b2, b3, b4⟩, ⟨q1, q2⟩, fun v => let ⟨r1, r2, r3⟩ := r v; ⟨r1, r2, r3⟩, ⟨e1, e2, e3⟩,
    ⟨u1, u2, u3, u4⟩, f⟩

theorem inv_readingTelemetry : Inv readingTelemetry where
  buffers := ⟨by decide, by decide, rfl, rfl⟩
  request := ⟨by decide, .inl rfl⟩
  response := fun h => by cases h
  errors := ⟨fun h => (by cases h), fun _ => rfl, fun h => (by cases h)⟩
  results := ⟨fun h => (by cases h), fun h => (by cases h), fun h => (by cases h), fun _ => ⟨rfl, rfl, rfl, rfl⟩⟩
  frame := ⟨rfl, by decide, by decide, [0x59#8, 0x59#8], rfl, rfl, rfl⟩

theorem inv_checksumNext : Inv (checksumNext .recv 0#8 1#8) where
  buffers := ⟨by decide, by decide, rfl, rfl⟩
  request := ⟨by decide, .inl rfl⟩
  response := fun h => by cases h
  errors := ⟨fun h => (by cases h), fun _ => rfl, fun h => (by cases h)⟩
  results := ⟨fun h => (by cases h), fun h => (by cases h), fun h => (by cases h), fun _ => ⟨rfl, rfl, rfl, rfl⟩⟩
  frame := ⟨.inl rfl, by decide, by decide, [0x5A#8, 0x04#8, 0x01#8], rfl, rfl, rfl⟩

theorem inv_lastByteNext : Inv lastByteNext where
  buffers := ⟨by decide, by decide, rfl, rfl⟩
  request := ⟨by decide, .inr ⟨1#8, [], rfl, by decide, rfl⟩⟩
  response := fun h => by cases h
  errors := ⟨fun h => (by cases h), fun _ => rfl, fun h => (by cases h)⟩
  results := ⟨fun h => (by cases h), fun _ => rfl, fun _ _ => rfl, fun _ => ⟨rfl, rfl, rfl, rfl⟩⟩
  frame := ⟨by decide, .inr ⟨.inr rfl, rfl⟩⟩

theorem inv_responseHeld : Inv responseHeld where
  buffers := ⟨by decide, by decide, rfl, rfl⟩
  request := ⟨by decide, .inl rfl⟩
  response := fun _ => ⟨.inl rfl, rfl, [0x5A#8, 0x04#8, 0x03#8, 0x61#8], [], rfl, rfl, rfl, rfl⟩
  errors := ⟨fun h => (by cases h), fun h => (by cases h), fun h => (by cases h)⟩
  results := ⟨fun h => (by cases h), fun h => (by cases h), fun h => (by cases h), fun _ => ⟨rfl, rfl, rfl, rfl⟩⟩
  frame := .inr rfl

theorem witness_DecodeEncodeRoundTrip :
    (Instr.reqSoftreset (List.replicate 251 0#8) 0#8).wellFormed = true ∧
    (Instr.rspGetversion 4#8 [] 0#8).wellFormed = true ∧
    (Instr.rspGeneric 255#8 0xFF#8 (List.replicate 251 0#8) 0#8).wellFormed = true ∧
    (Instr.build 4#8 255#8 (List.replicate 251 0#8)).wellFormed = true := by decide +kernel

theorem witness_DecodedFrameEncodesBack :
    decode (.rx [0x5A, 0x04, 0x02, 0x60, 0x99]) = .ok (.rspSoftreset 4#8 [] 0x60#8) ∧
    (Instr.rspSoftreset 4#8 [] 0x60#8).wellFormed = true ∧
    decode (.tx [0x5A, 0x04, 0x01, 0x5F]) = .ok (.reqGetversion 0x5F#8) := by decide

theorem witness_SpecWordsDecode :
    [0#3, 1#3, 2#3, 3#3, 4#3, 5#3, 6#3, 7#3].map (fun k => (hostReq k 0#8 0#8 [] 0#16).opSel) =
      [0#3, 1#3, 2#3, 3#3, 4#3, 5#3, 6#3, 7#3] := by decide +kernel

theorem witness_ChecksumLaws :
    [1#8, 2#8].Perm [2#8, 1#8] ∧
    ([0x80#8, 0x80#8].map BitVec.toNat).sum % 256 = (([] : List Byte).map BitVec.toNat).sum % 256 := by decide

theorem witness_FieldAssembly :
    Memory.read [(0, 0x34#8), (1, 0x12#8)] 0 = some 0x34#8 ∧
    Memory.read [(0, 0x34#8), (1, 0x12#8)] (0 + 1) = some 0x12#8 := by decide

theorem witness_BuildCommandFrame :
    ([] : List Byte).length ≤ 251 ∧ (List.replicate 251 0#8).length ≤ 251 :=
  ⟨Nat.zero_le _, Nat.le_of_eq List.length_replicate⟩

theorem witness_StepRunsTheDecodedInstruction_host :
    (withEdge State.reset (eventPins (.hostReq (hostReq 3#3 0#8 0#8 [] 0#16)))).inputs =
      [eventPins (.hostReq (hostReq 3#3 0#8 0#8 [] 0#16))] ∧
    portEvent (eventPins (.hostReq (hostReq 3#3 0#8 0#8 [] 0#16))) .idle =
      some (.hostReq (hostReq 3#3 0#8 0#8 [] 0#16)) ∧
    completedFrame (.hostReq (hostReq 3#3 0#8 0#8 [] 0#16)) State.reset =
      some (.host (hostReq 3#3 0#8 0#8 [] 0#16)) ∧
    decode (.host (hostReq 3#3 0#8 0#8 [] 0#16)) = .ok .recv := ⟨rfl, rfl, rfl, rfl⟩

theorem witness_StepRunsTheDecodedInstruction_rx :
    portEvent (eventPins (.rxByte 0x5F#8)) (checksumNext .recv 0#8 1#8).fsm = some (.rxByte 0x5F#8) ∧
    completedFrame (.rxByte 0x5F#8) (checksumNext .recv 0#8 1#8) = some (.rx [0x5A, 0x04, 0x01, 0x5F]) ∧
    decode (.rx [0x5A, 0x04, 0x01, 0x5F]) = .ok (.rspGetversion 4#8 [] 0x5F#8) ∧
    portEvent (eventPins (.rxByte 0x3D#8)) ninthByteNext.fsm = some (.rxByte 0x3D#8) ∧
    (completedFrame (.rxByte 0x3D#8) ninthByteNext).map decode =
      some (.ok (.tlmFrame 100#16 200#16 8000#16 0x3D#8)) := by decide +kernel

theorem witness_StepRunsTheDecodedInstruction_tx :
    portEvent (eventPins .txAccept) lastByteNext.fsm = some .txAccept ∧
    completedFrame .txAccept lastByteNext = some (.tx [0x5A, 0x04, 0x01, 0x5F]) ∧
    decode (.tx [0x5A, 0x04, 0x01, 0x5F]) = .ok (.reqGetversion 0x5F#8) := by decide +kernel

theorem witness_StepTakesTheEventOfTheEdge :
    Inv { checksumNext .recv 0#8 1#8 with inputs := [eventPins (.rxByte 0x5F#8)] } ∧
    portEvent (eventPins (.rxByte 0x5F#8)) .rCsum = some (.rxByte 0x5F#8) ∧
    Inv { readingTelemetry with inputs := [] } ∧
    Inv { readingTelemetry with inputs := [quietPins] } ∧ portEvent quietPins .tRead = none :=
  ⟨inv_withInputs inv_checksumNext _, rfl, inv_withInputs inv_readingTelemetry _, inv_withInputs inv_readingTelemetry _, rfl⟩

theorem witness_HandshakesMakeEvents :
    (withEdge seeking quietPins).inputs = [quietPins] ∧ portEvent quietPins seeking.fsm = none := ⟨rfl, rfl⟩

theorem witness_EnabledEventTable :
    State.reset.fsm = .idle ∧ sessionOver.fsm = .dead ∧
    (∀ p, portEvent p State.reset.fsm ≠ some .txAccept) ∧ (∀ p, portEvent p seeking.fsm ≠ some .txFail) := by
  refine ⟨rfl, rfl, fun p => ?_, fun p => ?_⟩ <;>
    simp only [portEvent, State.reset, seeking, Fsm.receiving, rxReady, txValid, opReady] <;>
    split_ifs <;> simp_all

theorem witness_InstructionsOutsideTheirStates :
    (∃ f, encode (.rspGeneric 4#8 4#8 [] 0x62#8) = .rx f) ∧ State.reset.fsm.receiving = false ∧
    (∃ f, encode (.reqGetversion 0x5F#8) = .tx f) ∧ seeking.fsm ≠ .cSend ∧
    (∃ r, encode .reservedOp7 = .host r) ∧ seeking.fsm.busy = true ∧ sessionOver.fsm = .dead :=
  ⟨⟨_, rfl⟩, rfl, ⟨_, rfl⟩, by decide, ⟨_, rfl⟩, rfl, rfl⟩

theorem witness_TransitionTable :
    (∃ t, takeEvent (.rxByte 0x3D#8) ninthByteNext = .next t) ∧
    (∃ t, takeEvent .txAccept lastByteNext = .next t) ∧ (∃ t, takeEvent .rxTimeout State.reset = .next t) :=
  ⟨⟨_, rfl⟩, ⟨_, rfl⟩, ⟨_, rfl⟩⟩

theorem witness_InvariantKeptByEveryStep :
    Inv { readingTelemetry with inputs := [eventPins (.rxByte 0x64#8)] } ∧
    ∃ t, step { readingTelemetry with inputs := [eventPins (.rxByte 0x64#8)] } = .next t :=
  ⟨inv_withInputs inv_readingTelemetry _, _, rfl⟩

theorem witness_StepNeverStops : Inv { lastByteNext with inputs := [eventPins .txAccept] } := inv_withInputs inv_lastByteNext _

theorem witness_AfterResetOnlyRequests : ∃ t, takeEvent .reset ninthByteNext = .next t := ⟨_, rfl⟩

theorem witness_CancelEndsTheOperation :
    State.reset.fsm = .idle ∧ sessionOver.fsm = .dead ∧ (seeking.fsm ≠ .idle ∧ seeking.fsm ≠ .dead) ∧
    (lastByteNext.fsm ≠ .idle ∧ lastByteNext.fsm ≠ .dead) ∧
    (readingTelemetry.fsm ∈ [Fsm.tSeek0, .tSeek1, .tRead] ∧
      ∃ t, takeEvent .rxTimeout readingTelemetry = .next t ∧ t.fsm ∉ [Fsm.tSeek0, .tSeek1, .tRead]) :=
  ⟨rfl, rfl, by decide, by decide, by decide, _, rfl, by decide⟩

theorem witness_RaiseWritesExactlyThis :
    (∃ t, takeEvent .rxTimeout seeking = .next t ∧ seeking.fsm.busy = true ∧
      t.results = seeking.results ++ [.error .serialTimeout false]) ∧
    (∃ t, takeEvent .txFail lastByteNext = .next t ∧ lastByteNext.fsm.busy = true ∧
      t.results = lastByteNext.results ++ [.error .transportError false]) ∧
    (∃ t, takeEvent (.rxByte 0x5F#8) (checksumNext .setfreq 3#8 1#8) = .next t ∧
      (checksumNext .setfreq 3#8 1#8).fsm.busy = true ∧
      t.results = (checksumNext .setfreq 3#8 1#8).results ++ [.error .unknownCommand true]) :=
  ⟨⟨_, rfl, rfl, rfl⟩, ⟨_, rfl, rfl, rfl⟩, _, rfl, rfl, rfl⟩

theorem witness_TimeoutRaisesSerialTimeout :
    seeking.fsm ∈ [Fsm.tSeek0, .tSeek1, .tRead, .rHdr, .rLen, .rPay, .rCsum] ∧
    versionNext.fsm ∈ [Fsm.tSeek0, .tSeek1, .tRead, .rHdr, .rLen, .rPay, .rCsum] := by decide

theorem witness_WriteFailureEndsTheSession : lastByteNext.fsm = .cSend := rfl

theorem witness_DeadRefusesEveryRequest :
    sessionOver.fsm = .dead ∧ (∃ t, takeEvent (.rxByte 0#8) sessionOver = .next t ∧ Event.rxByte 0#8 ≠ .reset) ∧
    ∃ t, takeEvent .reset sessionOver = .next t := ⟨rfl, ⟨_, rfl, by simp⟩, _, rfl⟩

theorem witness_TlmAndRecvAccepted :
    responseHeld.fsm = .idle ∧ readingTelemetry.fsm ∈ [Fsm.tSeek0, .tSeek1, .tRead] ∧
    ∃ t, takeEvent (.rxByte 0x59#8) readingTelemetry = .next t := ⟨rfl, by decide, _, rfl⟩

theorem witness_SeekingTheFirstHeaderByte : seeking.fsm = .tSeek0 ∧ (0x58#8 : Byte) ≠ 0x59#8 := by decide

theorem witness_SeekingTheSecondHeaderByte :
    ({ seeking with fsm := .tSeek1, cnt := 1#8 } : State).fsm = .tSeek1 ∧ (0x5A#8 : Byte) ≠ 0x59#8 := by decide

theorem witness_ReadingABodyByte :
    (readingTelemetry.fsm = .tRead ∧ 2 ≤ readingTelemetry.cnt.toNat ∧ readingTelemetry.cnt.toNat < 8) ∧
    ({ readingTelemetry with cnt := 7#8 } : State).fsm = .tRead ∧ 2 ≤ (7#8 : Byte).toNat ∧ (7#8 : Byte).toNat < 8 := by
  decide

theorem witness_NinthByteReportsTheFrame :
    ninthByteNext.fsm = .tRead ∧ ninthByteNext.cnt = 8#8 ∧
    ninthByteNext.x.readBytes 2 6 = some [0x64, 0x00, 0xC8, 0x00, 0x40, 0x1F] := by decide

theorem witness_TelemetryFrameDecoded : seeking.fsm = .tSeek0 ∧ seeking.cnt = 0#8 := ⟨rfl, rfl⟩

theorem witness_ResynchronisationAfterGarbage :
    State.reset.fsm = .idle ∧ (hostReq 0#3 0#8 0#8 [] 0#16).opSel = 0#3 ∧
    (∀ u v : List Byte, [0x59#8, 0x11#8] ≠ u ++ [0x59#8, 0x59#8] ++ v) ∧
    ([0x59#8, 0x11#8] : List Byte).getLast? ≠ some 0x59#8 := by
  refine ⟨rfl, rfl, fun u v h => ?_, by decide⟩
  match u with
  | [] => simp at h
  | [_] => simp at h
  | _ :: _ :: _ => simp at h

theorem witness_BuildAccepted :
    State.reset.fsm = .idle ∧ ((cmdOfByte 3#8).isSome = true ∧ (251#8 : Byte).toNat ≤ 251) ∧
    cmdOfByte 4#8 = none ∧ 251 < (252#8 : Byte).toNat := by decide

theorem witness_SendAccepted :
    responseHeld.fsm = .idle ∧ ((cmdOfByte 1#8).isSome = true ∧ (0#8 : Byte).toNat ≤ 251) ∧
    cmdOfByte 0#8 = none ∧ 251 < (252#8 : Byte).toNat := by decide

theorem witness_BadRequestIsRefused :
    State.reset.fsm = .idle ∧ cmdOfByte 0xFF#8 = none ∧ 251 < (255#8 : Byte).toNat := by decide

theorem witness_HandingOverOneByte :
    ((sending .send [0x5A, 0x04, 0x01, 0x5F] 0#8).fsm = .cSend ∧
      (sending .send [0x5A, 0x04, 0x01, 0x5F] 0#8).t.read 0 = some 0x5A#8 ∧ 0 + 1 < (4#8 : Byte).toNat) ∧
    ((sending .send [0x5A, 0x04, 0x01, 0x5F] 3#8).t.read 3 = some 0x5F#8 ∧ 3 + 1 = (4#8 : Byte).toNat ∧
      (sending .send [0x5A, 0x04, 0x01, 0x5F] 3#8).op = .send) ∧
    (lastByteNext.fsm = .cSend ∧ lastByteNext.txIdx.toNat < 255 ∧
      lastByteNext.t.read lastByteNext.txIdx.toNat = some 0x5F#8 ∧
      lastByteNext.txIdx.toNat + 1 = lastByteNext.txLen.toNat ∧ lastByteNext.op = .getver) := by decide

theorem witness_RequestFrameIsTransmitted :
    Instr.reqGetversion 0x5F#8 ∈ requestRows 1#8 [] 0x5F#8 ∧
    Instr.reqGeneric 1#8 [] 0x5F#8 ∈ requestRows 1#8 [] 0x5F#8 ∧
    Instr.reqSoftreset [0xAA#8] 0x0B#8 ∈ requestRows 2#8 [0xAA#8] 0x0B#8 ∧
    Instr.reqSamplefreq 100#16 0xC7#8 ∈ requestRows 3#8 [0x64#8, 0#8] 0xC7#8 ∧
    lastByteNext.fsm = .cSend ∧ lastByteNext.op = .getver ∧
    lastByteNext.txIdx.toNat < lastByteNext.txLen.toNat ∧
    lastByteNext.visibleT = some (encodeRequest 1#8 [] 0x5F#8) := by decide

theorem witness_RequestFrameIsTransmitted_rows :
    (∀ o : Op, (sending o (encodeRequest 2#8 [0xAA#8] 0x0B#8) 1#8).fsm = .cSend ∧
      (sending o (encodeRequest 3#8 [0x64#8, 0#8] 0xC7#8) 5#8).fsm = .cSend) ∧
    (sending .send (encodeRequest 2#8 [0xAA#8] 0x0B#8) 1#8).visibleT = some (encodeRequest 2#8 [0xAA#8] 0x0B#8) ∧
    (sending .send (encodeRequest 2#8 [0xAA#8] 0x0B#8) 1#8).txIdx.toNat <
      (sending .send (encodeRequest 2#8 [0xAA#8] 0x0B#8) 1#8).txLen.toNat ∧
    (sending .setfreq (encodeRequest 3#8 [0x64#8, 0#8] 0xC7#8) 5#8).visibleT =
      some (encodeRequest 3#8 [0x64#8, 0#8] 0xC7#8) ∧
    (sending .setfreq (encodeRequest 3#8 [0x64#8, 0#8] 0xC7#8) 5#8).txIdx.toNat <
      (sending .setfreq (encodeRequest 3#8 [0x64#8, 0#8] 0xC7#8) 5#8).txLen.toNat ∧
    Instr.reqGeneric 1#8 [0x77#8] 0xD7#8 ∈ requestRows 1#8 [0x77#8] 0xD7#8 ∧
    (sending .send (encodeRequest 1#8 [0x77#8] 0xD7#8) 0#8).visibleT = some (encodeRequest 1#8 [0x77#8] 0xD7#8) ∧
    (sending .send (encodeRequest 1#8 [0x77#8] 0xD7#8) 0#8).txIdx.toNat <
      (sending .send (encodeRequest 1#8 [0x77#8] 0xD7#8) 0#8).txLen.toNat := by
  refine ⟨fun o => ⟨rfl, rfl⟩, ?_⟩
  decide

theorem witness_ResponseHeaderByte : (waiting .recv 0#8).fsm = .rHdr ∧ (0x59#8 : Byte) ≠ 0x5A#8 := by decide

theorem witness_ResponseLengthByte :
    ({ waiting .recv 0#8 with fsm := .rLen, cnt := 1#8 } : State).fsm = .rLen ∧ 4 ≤ (4#8 : Byte).toNat ∧
    (3#8 : Byte).toNat < 4 := by decide

theorem witness_ResponsePayloadByte :
    (({ waiting .recv 0#8 with fsm := .rPay, cnt := 2#8, len := 4#8 } : State).fsm = .rPay ∧
      2 ≤ (2#8 : Byte).toNat ∧ (2#8 : Byte).toNat + 2 ≤ (4#8 : Byte).toNat) ∧
    2 ≤ (2#8 : Byte).toNat ∧ (253#8 : Byte).toNat + 2 ≤ (255#8 : Byte).toNat := by decide

theorem witness_ResponseVerdict :
    (versionNext.fsm = .rCsum ∧ versionNext.cnt.toNat + 1 = versionNext.len.toNat ∧
      versionNext.x.read 2 = some 1#8 ∧ cmdOfByte 1#8 ≠ none ∧ versionNext.acc ≠ 0x69#8 ∧
      versionNext.acc = 0x68#8) ∧
    ((checksumNext .recv 0#8 4#8).x.read 2 = some 4#8 ∧ cmdOfByte 4#8 = none ∧
      (checksumNext .recv 0#8 4#8).cnt.toNat + 1 = (checksumNext .recv 0#8 4#8).len.toNat) := by decide

theorem witness_RecvSucceeds :
    (checksumNext .recv 0#8 1#8).fsm = .rCsum ∧ (checksumNext .recv 0#8 1#8).op = .recv ∧
    (checksumNext .recv 0#8 1#8).cnt.toNat + 1 = (checksumNext .recv 0#8 1#8).len.toNat ∧
    (checksumNext .recv 0#8 1#8).x.read 2 = some 1#8 ∧ (cmdOfByte 1#8).isSome = true ∧
    (checksumNext .recv 0#8 1#8).acc = 0x5F#8 ∧
    (checksumNext .recv 0#8 1#8).x.readBytes 3 ((checksumNext .recv 0#8 1#8).len.toNat - 4) = some [] := by decide

theorem witness_HighLevelOperationsFinish_correlation :
    (checksumNext .setfreq 3#8 1#8).fsm = .rCsum ∧
    (checksumNext .setfreq 3#8 1#8).cnt.toNat + 1 = (checksumNext .setfreq 3#8 1#8).len.toNat ∧
    (checksumNext .setfreq 3#8 1#8).x.read 2 = some 1#8 ∧ (cmdOfByte 1#8).isSome = true ∧
    (checksumNext .setfreq 3#8 1#8).acc = 0x5F#8 ∧ (1#8 : Byte) ≠ (checksumNext .setfreq 3#8 1#8).reqId := by
  decide

theorem witness_HighLevelOperationsFinish_setfreq :
    (checksumNext .setfreq 3#8 3#8).x.read 2 = some 3#8 ∧ (checksumNext .setfreq 3#8 3#8).op = .setfreq ∧
    (cmdOfByte 3#8).isSome = true ∧ (checksumNext .setfreq 3#8 3#8).acc = 0x61#8 ∧
    (3#8 : Byte) = (checksumNext .setfreq 3#8 3#8).reqId := by decide

theorem witness_HighLevelOperationsFinish_short_version :
    (checksumNext .getver 1#8 1#8).x.read 2 = some 1#8 ∧ (checksumNext .getver 1#8 1#8).op = .getver ∧
    (1#8 : Byte) = (checksumNext .getver 1#8 1#8).reqId ∧ (checksumNext .getver 1#8 1#8).acc = 0x5F#8 ∧
    (checksumNext .getver 1#8 1#8).len.toNat < 7 := by decide

theorem witness_HighLevelOperationsFinish_version :
    versionNext.fsm = .rCsum ∧ versionNext.cnt.toNat + 1 = versionNext.len.toNat ∧
    versionNext.x.read 2 = some 1#8 ∧ versionNext.acc = 0x68#8 ∧ versionNext.op = .getver ∧
    (1#8 : Byte) = versionNext.reqId ∧ 7 ≤ versionNext.len.toNat ∧
    versionNext.x.readBytes 3 3 = some [2, 3, 1] := by decide

theorem witness_LegalResponseCompletesRecv :
    Instr.rspGeneric 4#8 3#8 [] 0x61#8 ∈ responseRows 4#8 3#8 [] (responseChecksum 4#8 3#8 []) ∧
    Instr.rspSamplefreq 4#8 [] 0x61#8 ∈ responseRows 4#8 3#8 [] (responseChecksum 4#8 3#8 []) ∧
    Instr.rspSoftreset 4#8 [] 0x60#8 ∈ responseRows 4#8 2#8 [] (responseChecksum 4#8 2#8 []) ∧
    Instr.rspGetversion 4#8 [] 0x5F#8 ∈ responseRows 4#8 1#8 [] (responseChecksum 4#8 1#8 []) ∧
    responseFramed 4#8 [] = true ∧ (cmdOfByte 3#8).isSome = true ∧ (waiting .recv 0#8).fsm = .rHdr ∧
    (waiting .recv 0#8).op = .recv ∧ (waiting .recv 0#8).cnt = 0#8 := by decide

theorem witness_BadResponseIsRejectedWhole :
    Instr.rspGeneric 4#8 0xFF#8 [] 0#8 ∈ responseRows 4#8 0xFF#8 [] 0#8 ∧ cmdOfByte 0xFF#8 = none ∧
    Instr.rspGetversion 5#8 [0xAA#8] 0x0B#8 ∈ responseRows 5#8 1#8 [0xAA#8] 0x0B#8 ∧
    responseFramed 5#8 [0xAA#8] = true ∧ (cmdOfByte 1#8).isSome = true ∧
    (0x0B#8 : Byte) ≠ responseChecksum 5#8 1#8 [0xAA#8] ∧ responseFramed 4#8 [] = true ∧
    (waiting .setfreq 3#8).fsm = .rHdr ∧ (waiting .setfreq 3#8).cnt = 0#8 := by decide

theorem witness_ParserAgreesWithReceiver :
    responseHeld.fsm = .idle ∧ (hostReq 3#3 0#8 0#8 [] 0#16).opSel = 3#3 := ⟨rfl, rfl⟩

theorem witness_ReceiverConsumesNoMore :
    (waiting .recv 0#8).fsm = .rHdr ∧ (waiting .recv 0#8).cnt = 0#8 ∧ (waiting .recv 0#8).op = .recv ∧
    ∃ t, takeRxBytes [0x5A, 0x04, 0x03, 0x61, 0x99] (waiting .recv 0#8) = .next t := ⟨rfl, rfl, rfl, _, rfl⟩

theorem witness_SetfreqAndGetverAccepted : responseHeld.fsm = .idle := rfl

theorem witness_SetfreqCycleSucceeds :
    State.reset.fsm = .idle ∧ (hostReq 4#3 0#8 0#8 [] 0x1234#16).opSel = 4#3 ∧ responseFramed 4#8 [] = true ∧
    responseFramed 6#8 [0x34, 0x12] = true := by decide +kernel

theorem witness_GetverCycleSucceeds :
    State.reset.fsm = .idle ∧ (hostReq 5#3 0#8 0#8 [] 0#16).opSel = 5#3 ∧
    responseFramed 7#8 ([2#8, 3#8, 1#8] ++ []) = true ∧ responseFramed 8#8 ([1#8, 2#8, 3#8] ++ [4#8]) = true := by
  decide +kernel

theorem witness_RoundTripOfCommandFrames :
    (cmdOfByte 3#8).isSome = true ∧ (List.replicate 251 0#8).length ≤ 251 ∧ State.reset.fsm = .idle ∧
    (hostReq 2#3 2#8 251#8 [] 0#16).opSel = 2#3 ∧ (hostReq 3#3 0#8 0#8 [] 0#16).opSel = 3#3 ∧
    (cmdOfByte (hostReq 2#3 2#8 251#8 [] 0#16).cmd).isSome = true ∧
    (hostReq 2#3 2#8 251#8 [] 0#16).plen.toNat ≤ 251 := by decide +kernel

theorem witness_CommandOperationsEnd :
    Inv { checksumNext .recv 0#8 1#8 with inputs := [] } ∧ (checksumNext .recv 0#8 1#8).fsm.busy = true ∧
    (checksumNext .recv 0#8 1#8).op ≠ .tlm ∧ (∀ e ∈ [Event.rxByte 0x5F#8], transportEvent e = true) ∧
    EnabledRun [.rxByte 0x5F#8] (checksumNext .recv 0#8 1#8) ∧
    stepsLeft (checksumNext .recv 0#8 1#8) ≤ [Event.rxByte 0x5F#8].length :=
  ⟨inv_withInputs inv_checksumNext _, rfl, by decide, by simp [transportEvent], fun _ => ⟨rfl, fun _ _ => trivial⟩, by decide⟩

theorem witness_RequestRegistersAreLatched :
    (∃ t, takeEvent (.hostReq (hostReq 5#3 0#8 0#8 [] 0#16)) State.reset = .next t) ∧
    State.reset.fsm = .idle ∧ requestWellFormed (hostReq 5#3 0#8 0#8 [] 0#16) ∧
    ¬ requestWellFormed (hostReq 6#3 0#8 0#8 [] 0#16) ∧
    ¬ requestWellFormed (hostReq 1#3 4#8 0#8 [] 0#16) ∧
    ∃ t, takeEvent (.hostReq (hostReq 6#3 0#8 0#8 [] 0#16)) State.reset = .next t :=
  ⟨⟨_, rfl⟩, rfl, by simp [requestWellFormed, hostReq], by simp [requestWellFormed, hostReq],
    by simp [requestWellFormed, hostReq, requestAccepted, cmdOfByte], _, rfl⟩

theorem witness_TransmitBufferIsLatched :
    (∀ k ∈ [1#3, 2#3, 4#3, 5#3], requestWellFormed (hostReq k 2#8 251#8 [] 250#16) ∧
      (requestedFrame (hostReq k 2#8 251#8 [] 250#16)).isSome = true ∧
      ∃ t, takeEvent (.hostReq (hostReq k 2#8 251#8 [] 250#16)) State.reset = .next t) ∧
    (requestWellFormed (hostReq 3#3 0#8 0#8 [] 0#16) ∧ requestedFrame (hostReq 3#3 0#8 0#8 [] 0#16) = none ∧
      ∃ t, takeEvent (.hostReq (hostReq 3#3 0#8 0#8 [] 0#16)) State.reset = .next t) ∧
    (¬ requestWellFormed (hostReq 1#3 4#8 0#8 [] 0#16) ∧
      ∃ t, takeEvent (.hostReq (hostReq 1#3 4#8 0#8 [] 0#16)) State.reset = .next t) ∧
    (∃ t, takeEvent .txAccept lastByteNext = .next t) ∧ Event.txAccept ≠ .reset := by
  refine ⟨fun k hk => ?_, ⟨by simp [requestWellFormed, hostReq], rfl, _, rfl⟩,
    ⟨by simp [requestWellFormed, hostReq, requestAccepted, cmdOfByte], _, rfl⟩, ⟨_, rfl⟩, by simp⟩
  fin_cases hk <;>
    exact ⟨by simp [requestWellFormed, hostReq, requestAccepted, cmdOfByte, Config.pMax], rfl, _, rfl⟩

theorem witness_ReceiveBufferFrame :
    ((∃ t, takeEvent .rxTimeout readingTelemetry = .next t) ∧ Event.rxTimeout ≠ .reset ∧
      ∀ b, Event.rxTimeout ≠ .rxByte b) ∧
    (Inv { checksumNext .recv 0#8 1#8 with inputs := [] } ∧
      ∃ t, takeEvent (.rxByte 0x5F#8) { checksumNext .recv 0#8 1#8 with inputs := [] } = .next t) :=
  ⟨⟨⟨_, rfl⟩, by simp, by simp⟩, inv_withInputs inv_checksumNext _, _, rfl⟩

theorem witness_TelemetryRegistersAreWrittenTogether :
    (∃ t, takeEvent (.rxByte 0x3D#8) ninthByteNext = .next t) ∧ Event.rxByte 0x3D#8 ≠ .reset := ⟨⟨_, rfl⟩, by simp⟩

theorem witness_ResponseAndVersionRegisters :
    (∃ t, takeEvent (.rxByte 0x68#8) versionNext = .next t ∧ t.respValid = true ∧ t.verValid = true) ∧
    (∃ t, takeEvent (.hostReq (hostReq 5#3 0#8 0#8 [] 0#16)) responseHeld = .next t ∧
      hidesResponse (.hostReq (hostReq 5#3 0#8 0#8 [] 0#16)) responseHeld t) ∧
    (∃ t, takeEvent .rxTimeout seeking = .next t ∧ hidesResponse .rxTimeout seeking t) ∧
    (∃ t, takeEvent .cancel seeking = .next t ∧ hidesResponse .cancel seeking t) ∧
    (∃ t, takeEvent (.hostReq (hostReq 6#3 0#8 0#8 [] 0#16)) responseHeld = .next t ∧
      ¬ hidesResponse (.hostReq (hostReq 6#3 0#8 0#8 [] 0#16)) responseHeld t) :=
  ⟨⟨_, rfl, rfl, rfl⟩, ⟨_, rfl, .inl ⟨rfl, _, rfl, by decide +kernel⟩⟩,
    ⟨_, rfl, .inr (.inl ⟨rfl, .serialTimeout, false, rfl⟩)⟩, ⟨_, rfl, .inr (.inr ⟨rfl, rfl⟩)⟩,
    ⟨_, rfl, by simp [hidesResponse, responseHeld, State.reset, Fsm.busy, hostReq]⟩⟩

theorem witness_ErrorRegistersFollowTheEvents :
    (∃ t, takeEvent .cancel seeking = .next t) ∧
    (∃ t, takeEvent (.rxByte 0x5F#8) (checksumNext .setfreq 3#8 1#8) = .next t ∧ t.errCorr = true) ∧
    requestWellFormed (hostReq 3#3 0#8 0#8 [] 0#16) ∧
    (∃ t, takeEvent (.hostReq (hostReq 3#3 0#8 0#8 [] 0#16)) State.reset = .next t) ∧
    ¬ (seeking.fsm = .idle ∧ ∃ r, Event.rxTimeout = .hostReq r ∧ requestWellFormed r) ∧
    ∃ t, takeEvent .rxTimeout seeking = .next t :=
  ⟨⟨_, rfl⟩, ⟨_, rfl, rfl⟩, by simp [requestWellFormed, hostReq], ⟨_, rfl⟩, by simp, _, rfl⟩

theorem witness_StreamsMoveOneByteAtATime :
    (∃ t, takeEvent (.rxByte 0x59#8) seeking = .next t ∧ seeking.fsm.receiving = true) ∧
    (∃ t, takeEvent .txAccept lastByteNext = .next t ∧ lastByteNext.fsm = .cSend) ∧
    (∃ t, takeEvent (.rxByte 0x59#8) State.reset = .next t ∧ State.reset.fsm.receiving = false) :=
  ⟨⟨_, rfl, rfl⟩, ⟨_, rfl, rfl⟩, _, rfl, rfl⟩

theorem witness_OperationEndsWithOneResult :
    (∃ t, takeEvent (.rxByte 0x68#8) versionNext = .next t ∧ versionNext.fsm.busy = true ∧ t.fsm.busy = false) ∧
    (∃ t, takeEvent .cancel versionNext = .next t ∧ t.fsm.busy = false) := ⟨⟨_, rfl, rfl, rfl⟩, _, rfl, rfl⟩

theorem witness_HostReadsOnlyVisibleBytes :
    (Inv { responseHeld with inputs := [] } ∧ responseHeld.fsm.busy = false ∧ 3 < responseHeld.cnt.toNat) ∧
    (Inv { lastByteNext with inputs := [] } ∧ lastByteNext.fsm.busy = true) :=
  ⟨⟨inv_withInputs inv_responseHeld _, rfl, by decide⟩, inv_withInputs inv_lastByteNext _, rfl⟩

end Sys2Proof.Tests
end

/-! PROOF. Which frame a decoded instruction is: the bytes the decoder looked at, and no others, are
the encoding of what it answers (30_encoding.md rules R61 to R63, R79). -/

namespace Sys2Proof.Machine

theorem lowByte_u16 (lo hi : Byte) : lowByte (u16 lo hi) = lo :=
  BitVec.extractLsb'_append_eq_right

theorem highByte_u16 (lo hi : Byte) : highByte (u16 lo hi) = hi :=
  BitVec.extractLsb'_append_eq_left

theorem freqParams_u16 (lo hi : Byte) : freqParams (u16 lo hi) = [lo, hi] := by
  rw [freqParams, lowByte_u16, highByte_u16]

/-- Nine bytes that decode as telemetry are the frame they decode to; bytes behind them are not
looked at. -/
theorem encode_of_decodeTelemetry {bytes : List Byte} {i : Instr} (h : decodeTelemetry bytes = .ok i) :
    encode i = .rx (bytes.take Config.tlmLen) := by
  rw [decodeTelemetry.eq_def] at h
  split at h
  · next h0 h1 d0 d1 s0 s1 t0 t1 c rest =>
    split at h
    · next hdr =>
      obtain ⟨rfl, rfl⟩ := hdr
      cases h
      simp [encode, encodeTelemetry, lowByte_u16, highByte_u16, Config.tlmLen]
    · cases h
  · cases h

/-- Whatever row the decoder chooses for a response, it carries all of the response's bytes. -/
theorem encode_responseRow (len id : Byte) (data : List Byte) (csum : Byte) :
    encode (responseRow len id data csum) = .rx (encodeResponse len id data csum) := by
  rw [responseRow]
  cases h : cmdOfByte id with
  | none => rfl
  | some c =>
    obtain rfl := (cmdOfByte_eq_some id c).mp h
    cases c <;> rfl

/-- Whatever row the decoder chooses for a request, it carries all of the request's bytes. -/
theorem encode_of_requestRow {id : Byte} {params : List Byte} {csum : Byte} {i : Instr}
    (h : requestRow id params csum = .ok i) : encode i = .tx (encodeRequest id params csum) := by
  rw [requestRow.eq_def] at h
  split at h
  case h_1 hid | h_2 hid | h_3 hid =>
    obtain rfl := (cmdOfByte_eq_some _ _).mp hid
    cases h
    simp [encode, freqParams_u16, cmdByte]
  case h_4 => cases h; rfl
  case h_5 => cases h

/-- The bytes of formats C and R that a length byte counts: header, length, id, the bytes between,
checksum (R62, R63). -/
theorem take_length_byte {hdr l id csum : Byte} {rest behind : List Byte}
    (hl : Config.lenMin ≤ l.toNat) (hrest : rest.drop (l.toNat - 4) = csum :: behind) :
    (hdr :: l :: id :: rest).take l.toNat = [hdr, l, id] ++ rest.take (l.toNat - 4) ++ [csum] := by
  obtain ⟨n, hn⟩ : ∃ n, l.toNat = n + 4 := ⟨l.toNat - 4, by simp only [Config.lenMin] at hl; omega⟩
  have hlast : rest[n]? = some csum := by
    rw [← List.head?_drop, show n = l.toNat - 4 by omega, hrest, List.head?_cons]
  rw [hn, List.take_succ_cons, List.take_succ_cons, List.take_succ_cons, List.take_add_one, hlast]
  rfl

/-- A response that decodes is the frame it decodes to, as far as its length byte counts. -/
theorem encode_of_decodeResponse {hdr l : Byte} {rest : List Byte} {i : Instr}
    (hl : Config.lenMin ≤ l.toNat) (h : decodeResponse (hdr :: l :: rest) = .ok i) :
    encode i = .rx ((hdr :: l :: rest).take l.toNat) := by
  rw [decodeResponse.eq_def] at h
  split at h
  · next hdr l id rest heq =>
    cases heq
    split_ifs at h with hhdr
    split at h
    · cases h
    · next csum behind hdrop =>
      cases h
      rw [encode_responseRow, take_length_byte hl hdrop, not_not.mp hhdr, encodeResponse]
  · cases h

/-- A request that decodes is the frame it decodes to, as far as its length byte counts. -/
theorem encode_of_decodeRequest {hdr l : Byte} {rest : List Byte} {i : Instr}
    (h : decodeRequest (hdr :: l :: rest) = .ok i) :
    encode i = .tx ((hdr :: l :: rest).take l.toNat) := by
  rw [decodeRequest.eq_def] at h
  split at h
  · next hdr l id rest heq =>
    cases heq
    split_ifs at h with hhdr hl
    split at h
    · cases h
    · next csum behind hdrop =>
      have hl : Config.lenMin ≤ l.toNat := by omega
      have hlen : requestLen (rest.take (l.toNat - 4)).length = l := by
        have := congrArg List.length hdrop
        simp only [List.length_drop, List.length_cons] at this
        simp only [Config.lenMin] at hl
        apply BitVec.eq_of_toNat_eq
        simp [requestLen, Config.lenOverhead]
        omega
      rw [encode_of_requestRow h, take_length_byte hl hdrop, not_not.mp hhdr, encodeRequest, hlen]
  · cases h

end Sys2Proof.Machine

/-! PROOF. The instruction an event completes does what the event does: a frame run as an instruction
at its last byte takes just that byte (00_scope.md rule R8; log entry 7). -/

namespace Sys2Proof.Machine

open Sys2Proof.Safety

/-- What an event can complete: a request, a received frame at its last byte, or the frame in `t` at
its last byte. -/
theorem completedFrame_eq_some {e : Event} {s : State} {w : Encoded} (h : completedFrame e s = some w) :
    (∃ r, e = .hostReq r ∧ w = .host r) ∨
    (∃ b f, e = .rxByte b ∧ s.fsm = .tRead ∧ s.cnt.toNat = 8 ∧ s.visibleX = some f ∧
      w = .rx (f ++ [b])) ∨
    (∃ b f, e = .rxByte b ∧ s.fsm = .rCsum ∧ s.visibleX = some f ∧ w = .rx (f ++ [b])) ∨
    (e = .txAccept ∧ s.fsm = .cSend ∧ s.txIdx.toNat + 1 = s.txLen.toNat ∧
      ∃ f, s.visibleT = some f ∧ w = .tx f) := by
  cases e with
  | hostReq r => cases h; exact .inl ⟨r, rfl, rfl⟩
  | rxByte b =>
    rw [completedFrame] at h
    split at h
    · next hf =>
      split_ifs at h with hc
      obtain ⟨f, hv, rfl⟩ := Option.map_eq_some_iff.mp h
      exact .inr (.inl ⟨b, f, rfl, hf, hc, hv, rfl⟩)
    · next hf =>
      obtain ⟨f, hv, rfl⟩ := Option.map_eq_some_iff.mp h
      exact .inr (.inr (.inl ⟨b, f, rfl, hf, hv, rfl⟩))
    · cases h
  | txAccept =>
    rw [completedFrame] at h
    split_ifs at h with hc
    obtain ⟨f, hv, rfl⟩ := Option.map_eq_some_iff.mp h
    exact .inr (.inr (.inr ⟨rfl, hc.1, hc.2, f, hv, rfl⟩))
  | reset | cancel | rxTimeout | txFail => cases h

theorem fetch_eq_some {e : Event} {s : State} {i : Instr} :
    fetch e s = some i ↔ ∃ w, completedFrame e s = some w ∧ decode w = .ok i := by
  rw [fetch, Option.bind_eq_some_iff]
  refine exists_congr fun w => and_congr_right fun _ => ?_
  cases decode w <;> simp [Except.toOption]

theorem length_of_visibleX {s : State} {f : List Byte} (h : s.visibleX = some f) :
    f.length = s.cnt.toNat :=
  ((Memory.readBytes_eq_some _ _ _ _).mp h).1

/-- A received frame run as an instruction when its last byte arrives takes that byte. -/
theorem exec_at_last_byte {i : Instr} {s : State} {f : List Byte} {b : Byte} (hv : s.visibleX = some f)
    (hrx : s.fsm.receiving = true) (henc : encode i = .rx (f ++ [b])) : exec i s = takeRxByte b s := by
  rw [exec_of_encode_rx i (f ++ [b]) s henc, receiveFrame_last f b s hv (length_of_visibleX hv) hrx]

/-- A frame in `t` all of whose bytes but the last are handed over: its last byte is taken. -/
theorem transmitFrame_last {f : List Byte} {s : State} (hv : s.visibleT = some f) (hf : s.fsm = .cSend)
    (hi : s.txIdx.toNat + 1 = s.txLen.toNat) : transmitFrame f s = takeTxAccept s := by
  rw [transmitFrame, if_pos hf, bytesToSend, if_pos hv, show s.txLen.toNat - s.txIdx.toNat = 1 by omega,
    takeTxAccepts]
  cases takeTxAccept s <;> rfl

/-- A telemetry frame completed by its ninth byte encodes back to the bytes received. -/
theorem encode_of_telemetry_completed {s : State} {f : List Byte} {b : Byte} {i : Instr}
    (hs : FrameInProgress s) (hf : s.fsm = .tRead) (hc : s.cnt.toNat = 8) (hv : s.visibleX = some f)
    (hd : decode (.rx (f ++ [b])) = .ok i) : encode i = .rx (f ++ [b]) := by
  have hlen : (f ++ [b]).length = Config.tlmLen := by
    rw [List.length_append, length_of_visibleX hv, hc]; rfl
  simp only [FrameInProgress, hf] at hs
  obtain ⟨-, -, -, f', hv', hdr, -⟩ := hs
  obtain rfl : f = f' := Option.some.inj (hv.symm.trans hv')
  have hhead : (f ++ [b]).head? = some Config.tlmHdr := by
    cases f <;> simp_all
  rw [decode, if_pos hhead] at hd
  rw [encode_of_decodeTelemetry hd, ← hlen, List.take_length]

/-- A response completed by its checksum byte encodes back to the bytes received. -/
theorem encode_of_response_completed {s : State} {f : List Byte} {b : Byte} {i : Instr}
    (hs : FrameInProgress s) (hf : s.fsm = .rCsum) (hv : s.visibleX = some f)
    (hd : decode (.rx (f ++ [b])) = .ok i) : encode i = .rx (f ++ [b]) := by
  simp only [FrameInProgress, hf] at hs
  obtain ⟨-, hmin, hc, f', hv', hdr, -⟩ := hs
  obtain rfl : f = f' := Option.some.inj (hv.symm.trans hv')
  have hlen : (f ++ [b]).length = s.len.toNat := by
    rw [List.length_append, length_of_visibleX hv, ← hc]; rfl
  obtain ⟨rest, rfl⟩ : ∃ rest, f = Config.cmdHdr :: s.len :: rest :=
    ⟨f.drop 2, by rw [← List.take_append_drop 2 f, hdr]; simp⟩
  rw [decode, if_neg (by simp; decide)] at hd
  rw [List.cons_append, List.cons_append] at hd hlen ⊢
  rw [encode_of_decodeResponse hmin hd, ← hlen, List.take_length]

/-- The frame held in `t` encodes back to its bytes. -/
theorem encode_of_request_held {s : State} {f : List Byte} {i : Instr} (hs : RequestHeld s)
    (h0 : s.txLen ≠ 0#8) (hv : s.visibleT = some f) (hd : decode (.tx f) = .ok i) :
    encode i = .tx f := by
  obtain ⟨id, params, -, hp, hv'⟩ := hs.frame.resolve_left h0
  obtain rfl : f = buildCommand id params := Option.some.inj (hv.symm.trans hv')
  have hlen : (buildCommand id params).length = (requestLen params.length).toNat := by
    simp only [Config.pMax] at hp
    simp [buildCommand, requestBody, requestLen, Config.lenOverhead]
    omega
  obtain ⟨rest, hcons⟩ : ∃ rest,
      buildCommand id params = Config.cmdHdr :: requestLen params.length :: rest := ⟨_, rfl⟩
  rw [hcons] at hd hlen ⊢
  rw [encode_of_decodeRequest hd, ← hlen, List.take_length]

/-- Where the frame in progress is the one the controller state says, running the instruction an event
completes is taking the event. -/
theorem exec_of_fetch {e : Event} {s : State} {i : Instr} (hx : FrameInProgress s) (ht : RequestHeld s)
    (h : fetch e s = some i) : exec i s = takeEvent e s := by
  obtain ⟨w, hw, hd⟩ := fetch_eq_some.mp h
  obtain ⟨r, rfl, rfl⟩ | ⟨b, f, rfl, hf, hc, hv, rfl⟩ | ⟨b, f, rfl, hf, hv, rfl⟩ |
    ⟨rfl, hf, hi, f, hv, rfl⟩ := completedFrame_eq_some hw
  · cases hd; rfl
  · exact exec_at_last_byte hv (by rw [hf]; rfl) (encode_of_telemetry_completed hx hf hc hv hd)
  · exact exec_at_last_byte hv (by rw [hf]; rfl) (encode_of_response_completed hx hf hv hd)
  · have h0 : s.txLen ≠ 0#8 := fun h0 => by simp [h0] at hi
    rw [exec_of_encode_tx i f s (encode_of_request_held ht h0 hv hd), transmitFrame_last hv hf hi,
      takeEvent]

theorem runEvent_eq_takeEvent {e : Event} {s : State} (hx : FrameInProgress s) (ht : RequestHeld s) :
    runEvent e s = takeEvent e s := by
  rw [runEvent]
  split
  · next i h => exact exec_of_fetch hx ht h
  · rfl

theorem runEvent_of_fetch {e : Event} {s : State} {i : Instr} (h : fetch e s = some i) :
    runEvent e s = exec i s := by
  rw [runEvent, h]

/-! ## The step, by the edge to come -/

theorem step_no_edge {s : State} (h : s.inputs = []) : step s = .next s := by
  rw [step, h]

/-- An edge that makes an event runs it on the state without that edge. -/
theorem step_of_event {s : State} {p : Pins} {rest : List Pins} {e : Event} (h : s.inputs = p :: rest)
    (he : portEvent p s.fsm = some e) : step s = runEvent e { s with inputs := rest } := by
  rw [step, h]
  simp only [runEdge, he]

/-- An edge that makes no event is taken off and changes nothing else. -/
theorem step_of_no_event {s : State} {p : Pins} {rest : List Pins} (h : s.inputs = p :: rest)
    (he : portEvent p s.fsm = none) : step s = .next { s with inputs := rest } := by
  rw [step, h]
  simp only [runEdge, he]

/-- Settles O9: the instruction the event completes is what the step runs. -/
theorem stepRunsTheDecodedInstruction : Obligations.StepRunsTheDecodedInstruction := by
  intro s p rest e w i hin he hw hd
  rw [step_of_event hin he, runEvent_of_fetch (fetch_eq_some.mpr ⟨w, hw, hd⟩)]

/-- Settles O10, from the two clauses of the invariant on the frame being received and the frame held
in `t`, neither of which reads the edges to come. -/
theorem stepTakesTheEventOfTheEdge : Obligations.StepTakesTheEventOfTheEdge := by
  intro s hs
  refine ⟨step_no_edge, fun p rest hin => ⟨fun e he => ?_, step_of_no_event hin⟩⟩
  obtain ⟨hindex, hframe⟩ := hs.request
  exact (step_of_event hin he).trans (runEvent_eq_takeEvent hs.frame ⟨hindex, hframe⟩)

end Sys2Proof.Machine

/-! PROOF. What one event can do, as a relation with one constructor for each row of the transition
table (10_state.md rule R16): `transition_of_takeEvent` is the inversion of the event-level step that
the statements about registers and the invariant go by. -/

namespace Sys2Proof.Machine

open Sys2Proof.Safety

/-- What a well-formed request taken in `IDLE` leads to, by the operation it selects (R76). -/
inductive Accepted (r : HostReq) (s : State) : State → Prop
  /-- R100 -/
  | tlm (hsel : r.opSel = 0#3) (hframe : requestedFrame r = none) :
      Accepted r s { hideReceived (acceptOp .tlm s) with fsm := .tSeek0 }
  /-- R121 -/
  | build {f : List Byte} (hsel : r.opSel = 1#3) (hframe : requestedFrame r = some f) :
      Accepted r s (emit .buildDone (loadFrame f (acceptOp .build s)))
  /-- R122 -/
  | send {f : List Byte} (hsel : r.opSel = 2#3) (hframe : requestedFrame r = some f) :
      Accepted r s { loadFrame f (acceptOp .send s) with fsm := .cSend }
  /-- R135 -/
  | recv (hsel : r.opSel = 3#3) (hframe : requestedFrame r = none) :
      Accepted r s { hideReceived (acceptOp .recv s) with fsm := .rHdr }
  /-- R156 -/
  | setfreq {f : List Byte} (hsel : r.opSel = 4#3) (hframe : requestedFrame r = some f) :
      Accepted r s { loadFrame f (hideReceived (acceptOp .setfreq s)) with
        reqId := 0x03#8, fsm := .cSend }
  /-- R157 -/
  | getver {f : List Byte} (hsel : r.opSel = 5#3) (hframe : requestedFrame r = some f) :
      Accepted r s { loadFrame f (hideReceived (acceptOp .getver s)) with
        reqId := 0x01#8, verValid := false, fsm := .cSend }

/-- What a byte `b`, already consumed, leads to in a state that waits for it: the telemetry decoder's
steps, then the response receiver's. -/
inductive Received (b : Byte) (s : State) : State → Prop
  /-- R101, the byte is a first header byte -/
  | firstHeader (hf : s.fsm = .tSeek0) (hb : b = Config.tlmHdr) :
      Received b s { s with x := s.x.write 0 b, cnt := 1#8, fsm := .tSeek1 }
  /-- R101, it is not -/
  | skipped (hf : s.fsm = .tSeek0) (hb : b ≠ Config.tlmHdr) : Received b s { s with fsm := .tSeek0 }
  /-- R102 -/
  | secondHeader (hf : s.fsm = .tSeek1) (hb : b = Config.tlmHdr) :
      Received b s { s with x := s.x.write 1 b, cnt := 2#8, acc := 0xB2#8, fsm := .tRead }
  /-- R104 -/
  | halfHeader (hf : s.fsm = .tSeek1) (hb : b ≠ Config.tlmHdr) :
      Received b s (emit .tlmHdrInvalid { s with cnt := 0#8, fsm := .tSeek0 })
  /-- R105 -/
  | body (hf : s.fsm = .tRead) (hc : s.cnt.toNat < 8) :
      Received b s { s with
        x := s.x.write s.cnt.toNat b, acc := s.acc + b, cnt := s.cnt + 1#8, fsm := .tRead }
  /-- R106 -/
  | telemetry (d st r : Half) (ok : Bool) (hf : s.fsm = .tRead) (hc : s.cnt = 8#8) :
      Received b s (reportTelemetry d st r ok { s with x := s.x.write 8 b })
  /-- R136, the byte is the header byte -/
  | header (hf : s.fsm = .rHdr) (hb : b = Config.cmdHdr) :
      Received b s { s with x := s.x.write 0 b, cnt := 1#8, acc := Config.cmdHdr, fsm := .rLen }
  /-- R136, it is not -/
  | badHeader (hf : s.fsm = .rHdr) (hb : b ≠ Config.cmdHdr) :
      Received b s (raiseError .invalidHeader false s)
  /-- R137, a length of at least 4 -/
  | length (hf : s.fsm = .rLen) (hb : Config.lenMin ≤ b.toNat) :
      Received b s { s with x := s.x.write 1 b, cnt := 2#8, len := b, acc := s.acc + b, fsm := .rPay }
  /-- R137, a length below 4 -/
  | badLength (hf : s.fsm = .rLen) (hb : b.toNat < Config.lenMin) :
      Received b s (raiseError .invalidLength false s)
  /-- R138 -/
  | payload (hf : s.fsm = .rPay) :
      Received b s { s with
        x := s.x.write s.cnt.toNat b, acc := s.acc + b, cnt := s.cnt + 1#8,
        fsm := if s.cnt.toNat + 2 = s.len.toNat then .rCsum else .rPay }
  /-- R139, R140: the frame is rejected, for its id or for its checksum -/
  | rejected (e : ErrCode) (hf : s.fsm = .rCsum) (he : e = .unknownCommand ∨ e = .invalidChecksum) :
      Received b s (raiseError e false { s with x := s.x.write s.cnt.toNat b })
  /-- R159: a valid response to another command -/
  | uncorrelated (id : Byte) (hf : s.fsm = .rCsum) (hop : s.op = .setfreq ∨ s.op = .getver)
      (hid : s.x.read 2 = some id) (hreq : id ≠ s.reqId) :
      Received b s (raiseError .unknownCommand true
        { s with x := s.x.write s.cnt.toNat b, cnt := s.len })
  /-- R161, fewer than three data bytes -/
  | noVersion (hf : s.fsm = .rCsum) (hop : s.op = .getver) :
      Received b s (raiseError .invalidLength false
        { s with x := s.x.write s.cnt.toNat b, cnt := s.len })
  /-- R141 -/
  | recvDone (id : Byte) (data : List Byte) (hf : s.fsm = .rCsum) (hop : s.op = .recv)
      (hid : s.x.read 2 = some id) (hv : frameVerdict id s.acc b = .good) :
      Received b s (emit (.recvDone id data) (recordResponse id
        { s with x := s.x.write s.cnt.toNat b, cnt := s.len }))
  /-- R160 -/
  | freqDone (id : Byte) (hf : s.fsm = .rCsum) (hop : s.op = .setfreq)
      (hid : s.x.read 2 = some id) (hv : frameVerdict id s.acc b = .good) :
      Received b s (emit .freqDone (recordResponse id
        { s with x := s.x.write s.cnt.toNat b, cnt := s.len }))
  /-- R161 -/
  | verDone (id p m j : Byte) (hf : s.fsm = .rCsum) (hop : s.op = .getver)
      (hid : s.x.read 2 = some id) (hv : frameVerdict id s.acc b = .good) :
      Received b s (emit (.verDone p m j) { recordResponse id
        { s with x := s.x.write s.cnt.toNat b, cnt := s.len } with
        verPatch := p, verMinor := m, verMajor := j, verValid := true })

/-- What an event leads to (R16). -/
inductive Transition (s : State) : Event → State → Prop
  /-- R200 -/
  | reset : Transition s .reset (resetRegisters s)
  /-- R184 -/
  | cancelled (hf : s.fsm.busy = true) :
      Transition s .cancel { s with cnt := 0#8, respValid := false, fsm := .idle }
  /-- R184 in `IDLE` and `DEAD`, and an event that is not enabled (R15) -/
  | ignored (e : Event) (h : enabled e s.fsm = false ∨ (e = .cancel ∧ s.fsm.busy = false)) :
      Transition s e s
  /-- R185 -/
  | refusedDead (r : HostReq) (hf : s.fsm = .dead) :
      Transition s (.hostReq r) (refuseRequest .transportError s)
  /-- R178 -/
  | refused (r : HostReq) (hf : s.fsm = .idle) (hw : ¬ requestWellFormed r) :
      Transition s (.hostReq r) (refuseRequest .badRequest s)
  | accepted {r : HostReq} {t : State} (hf : s.fsm = .idle) (hw : requestWellFormed r)
      (h : Accepted r s t) : Transition s (.hostReq r) t
  | received {b : Byte} {t : State} (hf : s.fsm.receiving = true) (h : Received b (consume b s) t) :
      Transition s (.rxByte b) t
  /-- R109, R142 -/
  | timedOut (hf : s.fsm.receiving = true) :
      Transition s .rxTimeout (raiseError .serialTimeout false s)
  /-- R123 -/
  | sentByte (b : Byte) (hf : s.fsm = .cSend) (hi : s.txIdx.toNat + 1 < s.txLen.toNat)
      (hb : s.t.read s.txIdx.toNat = some b) :
      Transition s .txAccept { txByte b s with txIdx := s.txIdx + 1#8, fsm := .cSend }
  /-- R124 -/
  | sentFrame (b : Byte) (hf : s.fsm = .cSend) (hi : s.txIdx.toNat + 1 = s.txLen.toNat)
      (hop : s.op = .send) (hb : s.t.read s.txIdx.toNat = some b) :
      Transition s .txAccept (emit .sendDone { txByte b s with txIdx := s.txIdx + 1#8, fsm := .idle })
  /-- R158 -/
  | sentRequest (b : Byte) (hf : s.fsm = .cSend) (hi : s.txIdx.toNat + 1 = s.txLen.toNat)
      (hop : s.op = .setfreq ∨ s.op = .getver) (hb : s.t.read s.txIdx.toNat = some b) :
      Transition s .txAccept { txByte b s with txIdx := s.txIdx + 1#8, fsm := .rHdr }
  /-- R125 -/
  | sendFailed (hf : s.fsm = .cSend) : Transition s .txFail (raiseError .transportError false s)

/-! ## Requests -/

/-- The eight codes of `op_sel` (R76). -/
theorem opSel_cases (r : HostReq) :
    r.opSel = 0#3 ∨ r.opSel = 1#3 ∨ r.opSel = 2#3 ∨ r.opSel = 3#3 ∨ r.opSel = 4#3 ∨ r.opSel = 5#3 ∨
      r.opSel = 6#3 ∨ r.opSel = 7#3 := by
  generalize r.opSel = k
  revert k
  decide

/-- The decoder's reading of a request is an instruction on the request port. -/
theorem encode_decodeHost (r : HostReq) : ∃ r', encode (decodeHost r) = .host r' := by
  rw [decodeHost]
  split <;> exact ⟨_, rfl⟩

/-- A host operation acts by `onRequest`: what it does in `IDLE` is its own (R176). -/
theorem exec_host {i : Instr} (h : ∃ r, encode i = .host r) :
    ∃ k : State → Out, ∀ s, exec i s = onRequest s k := by
  obtain ⟨r, h⟩ := h
  cases i <;> cases h <;>
    simp only [exec, execTlm, execBuild, execSend, execRecv, execSetfreq, execGetver,
      execReservedOp6, execReservedOp7] <;>
    exact ⟨_, fun _ => rfl⟩

/-- A host operation offered while the block is busy changes nothing (R15, log entry 3). -/
theorem exec_host_busy {i : Instr} {s : State} (h : ∃ r, encode i = .host r)
    (hf : s.fsm.busy = true) : exec i s = .next s := by
  obtain ⟨k, hk⟩ := exec_host h
  rw [hk, onRequest_busy s k hf]

/-- A host operation in `DEAD` is refused with `TransportError` (R185). -/
theorem exec_host_dead {i : Instr} {s : State} (h : ∃ r, encode i = .host r) (hf : s.fsm = .dead) :
    exec i s = .next (refuseRequest .transportError s) := by
  obtain ⟨k, hk⟩ := exec_host h
  rw [hk, onRequest_dead s k hf]

/-- BUILD and SEND put the frame of the request into `t` (R120). -/
theorem requestedFrame_of_params {r : HostReq} (hsel : r.opSel = 1#3 ∨ r.opSel = 2#3) :
    requestedFrame r = some (requestFrame r.cmd r.plen (r.params.toList.take r.plen.toNat)) := by
  rw [requestedFrame, if_pos hsel, requestFrame, requestParams, List.take_take, min_self]

/-- A code up to 5 that is neither BUILD's nor SEND's makes a request well-formed by itself (R77). -/
theorem requestWellFormed_of_opSel {r : HostReq} (h5 : r.opSel.toNat ≤ 5)
    (h : ¬ (r.opSel = 1#3 ∨ r.opSel = 2#3)) : requestWellFormed r :=
  ⟨h5, fun h' => absurd h' h⟩

/-- BUILD and SEND are well-formed exactly if their arguments are (R77). -/
theorem requestWellFormed_of_params {r : HostReq} (hsel : r.opSel = 1#3 ∨ r.opSel = 2#3) :
    requestWellFormed r ↔ requestAccepted r.cmd r.plen = true := by
  refine ⟨fun h => h.2 hsel, fun h => ⟨?_, fun _ => h⟩⟩
  obtain hsel | hsel := hsel <;> simp [hsel]

/-- A request is always answered in `IDLE`: accepted if it is well-formed, refused if not. -/
theorem exec_request_idle (r : HostReq) {s : State} (hf : s.fsm = .idle) :
    ∃ t, exec (decodeHost r) s = .next t ∧
      ((requestWellFormed r ∧ Accepted r s t) ∨
        (¬ requestWellFormed r ∧ t = refuseRequest .badRequest s)) := by
  obtain h | h | h | h | h | h | h | h := opSel_cases r
  · have hi : decodeHost r = .tlm := by rw [decodeHost, h]; rfl
    rw [hi, exec, execTlm, onRequest_idle s _ hf]
    exact ⟨_, rfl, .inl ⟨requestWellFormed_of_opSel (by simp [h]) (by simp [h]),
      .tlm h (by simp [requestedFrame, h])⟩⟩
  · have hi : decodeHost r = .build r.cmd r.plen (r.params.toList.take r.plen.toNat) := by
      rw [decodeHost, h]; rfl
    rw [hi, exec, execBuild, onRequest_idle s _ hf, requestWellFormed_of_params (.inl h)]
    split
    · next hw => exact ⟨_, rfl, .inl ⟨hw, .build h (requestedFrame_of_params (.inl h))⟩⟩
    · next hw => exact ⟨_, rfl, .inr ⟨hw, rfl⟩⟩
  · have hi : decodeHost r = .send r.cmd r.plen (r.params.toList.take r.plen.toNat) := by
      rw [decodeHost, h]; rfl
    rw [hi, exec, execSend, onRequest_idle s _ hf, requestWellFormed_of_params (.inr h)]
    split
    · next hw => exact ⟨_, rfl, .inl ⟨hw, .send h (requestedFrame_of_params (.inr h))⟩⟩
    · next hw => exact ⟨_, rfl, .inr ⟨hw, rfl⟩⟩
  · have hi : decodeHost r = .recv := by rw [decodeHost, h]; rfl
    rw [hi, exec, execRecv, onRequest_idle s _ hf]
    exact ⟨_, rfl, .inl ⟨requestWellFormed_of_opSel (by simp [h]) (by simp [h]),
      .recv h (by simp [requestedFrame, h])⟩⟩
  · have hi : decodeHost r = .setfreq r.freq := by rw [decodeHost, h]; rfl
    rw [hi, exec, execSetfreq, onRequest_idle s _ hf]
    exact ⟨_, rfl, .inl ⟨requestWellFormed_of_opSel (by simp [h]) (by simp [h]),
      .setfreq h (by simp [requestedFrame, h, cmdByte])⟩⟩
  · have hi : decodeHost r = .getver := by rw [decodeHost, h]; rfl
    rw [hi, exec, execGetver, onRequest_idle s _ hf]
    exact ⟨_, rfl, .inl ⟨requestWellFormed_of_opSel (by simp [h]) (by simp [h]),
      .getver h (by simp [requestedFrame, h, cmdByte])⟩⟩
  · have hi : decodeHost r = .reservedOp6 := by rw [decodeHost, h]; rfl
    rw [hi, exec, execReservedOp6, onRequest_idle s _ hf]
    exact ⟨_, rfl, .inr ⟨fun hw => absurd hw.1 (by simp [h]), rfl⟩⟩
  · have hi : decodeHost r = .reservedOp7 := by rw [decodeHost, h]; rfl
    rw [hi, exec, execReservedOp7, onRequest_idle s _ hf]
    exact ⟨_, rfl, .inr ⟨fun hw => absurd hw.1 (by simp [h]), rfl⟩⟩

/-! ## Received bytes -/

/-- A good verdict: the id is in the enumeration and the checksum byte matches (R140). -/
theorem frameVerdict_eq_good {id computed b : Byte} :
    frameVerdict id computed b = .good ↔ (cmdOfByte id).isSome = true ∧ computed = b := by
  rw [frameVerdict]
  cases cmdOfByte id <;> by_cases h : computed = b <;> simp [h]

/-- The checksum byte of a response completes the operation, or it raises an error (R139). -/
theorem received_of_receiveChecksum {b : Byte} {s t : State} (hf : s.fsm = .rCsum)
    (h : receiveChecksum b s = .next t) : Received b s t := by
  obtain ⟨-, id, hid, ⟨-, rfl⟩ | ⟨-, rfl⟩ | ⟨hv, h⟩⟩ := (receiveChecksum_eq_next b s t).mp h
  · exact .rejected _ hf (.inl rfl)
  · exact .rejected _ hf (.inr rfl)
  obtain ⟨hop, h⟩ | ⟨hop, h⟩ | ⟨hop, h⟩ := (finishResponse_eq_next _ _ _).mp h
  · obtain ⟨data, -, rfl⟩ := (finishRecv_eq_next _ _ _).mp h
    exact .recvDone id data hf hop hid hv
  · obtain ⟨hreq, rfl⟩ | ⟨-, h⟩ := (correlate_eq_next _ _ _ _).mp h
    · exact .uncorrelated id hf (.inl hop) hid hreq
    · obtain rfl := (finishSetfreq_eq_next _ _ _).mp h
      exact .freqDone id hf hop hid hv
  · obtain ⟨hreq, rfl⟩ | ⟨-, h⟩ := (correlate_eq_next _ _ _ _).mp h
    · exact .uncorrelated id hf (.inr hop) hid hreq
    · obtain ⟨-, rfl⟩ | ⟨-, p, m, j, -, -, -, rfl⟩ := (finishGetver_eq_next _ _ _).mp h
      · exact .noVersion hf hop
      · exact .verDone id p m j hf hop hid hv

theorem received_of_receiveStep {b : Byte} {s t : State} (hrx : s.fsm.receiving = true)
    (h : receiveStep b s = .next t) : Received b s t := by
  cases hf : s.fsm <;> simp only [receiveStep, hf] at h
  case tSeek0 =>
    obtain ⟨hb, rfl⟩ | ⟨hb, rfl⟩ := (seekFirst_eq_next b s t).mp h
    · exact .firstHeader hf hb
    · exact .skipped hf hb
  case tSeek1 =>
    obtain ⟨hb, rfl⟩ | ⟨hb, rfl⟩ := (seekSecond_eq_next b s t).mp h
    · exact .secondHeader hf hb
    · exact .halfHeader hf hb
  case tRead =>
    obtain ⟨hc, h⟩ | ⟨hc, h⟩ := (readTelemetry_eq_next b s t).mp h
    · obtain ⟨-, rfl⟩ := (readBody_eq_next b s t).mp h
      exact .body hf hc
    · obtain ⟨d0, d1, s0, s1, t0, t1, -, -, -, -, -, -, rfl⟩ := (readLast_eq_next b s t).mp h
      exact .telemetry _ _ _ _ hf (BitVec.eq_of_toNat_eq hc)
  case rHdr =>
    obtain ⟨hb, rfl⟩ | ⟨hb, rfl⟩ := (receiveHeader_eq_next b s t).mp h
    · exact .header hf hb
    · exact .badHeader hf hb
  case rLen =>
    obtain ⟨hb, rfl⟩ | ⟨hb, rfl⟩ := (receiveLength_eq_next b s t).mp h
    · exact .length hf hb
    · exact .badLength hf hb
  case rPay =>
    obtain ⟨-, rfl⟩ := (receivePayload_eq_next b s t).mp h
    exact .payload hf
  case rCsum => exact received_of_receiveChecksum hf h
  case idle | cSend | dead => simp [hf, Fsm.receiving] at hrx

/-! ## Events -/

theorem transition_of_takeTxAccept {s t : State} (h : takeTxAccept s = .next t) :
    Transition s .txAccept t := by
  obtain ⟨hf, h⟩ | ⟨hf, rfl⟩ := (takeTxAccept_eq_next s t).mp h
  · obtain ⟨-, b, hb, ⟨hi, rfl⟩ | ⟨hi, h⟩⟩ := (sendByte_eq_next s t).mp h
    · exact .sentByte b hf hi hb
    · obtain ⟨hop, rfl⟩ | ⟨hop, rfl⟩ := (sendFinished_eq_next _ t).mp h
      · exact .sentFrame b hf hi hop hb
      · exact .sentRequest b hf hi hop hb
  · exact .ignored _ (.inl (decide_eq_false hf))

theorem transition_of_hostReq {r : HostReq} {s t : State} (h : exec (decodeHost r) s = .next t) :
    Transition s (.hostReq r) t := by
  by_cases hb : s.fsm.busy = true
  · rw [exec_host_busy (encode_decodeHost r) hb] at h
    cases h
    exact .ignored _ (.inl (by simp [enabled, hb]))
  by_cases hd : s.fsm = .dead
  · rw [exec_host_dead (encode_decodeHost r) hd] at h
    cases h
    exact .refusedDead r hd
  have hf : s.fsm = .idle := by
    cases hf : s.fsm <;> simp_all [Fsm.busy]
  obtain ⟨u, hu, hrow⟩ := exec_request_idle r hf
  rw [hu] at h
  cases h
  obtain ⟨hw, hacc⟩ | ⟨hw, rfl⟩ := hrow
  · exact .accepted hf hw hacc
  · exact .refused r hf hw

/-- The inversion of the event-level step: an answered event is one of the rows. -/
theorem transition_of_takeEvent {e : Event} {s t : State} (h : takeEvent e s = .next t) :
    Transition s e t := by
  cases e with
  | reset => cases h; exact .reset
  | cancel =>
    cases h
    by_cases hb : s.fsm.busy = true
    · rw [cancelOperation_busy s hb]
      exact .cancelled hb
    · have hsame : cancelOperation s = s := by
        cases hf : s.fsm <;> simp_all [Fsm.busy, cancelOperation]
      rw [hsame]
      exact .ignored _ (.inr ⟨rfl, by simpa using hb⟩)
  | hostReq r => exact transition_of_hostReq h
  | rxByte b =>
    obtain ⟨hrx, h⟩ | ⟨hrx, rfl⟩ := (takeRxByte_eq_next b s t).mp h
    · exact .received hrx (received_of_receiveStep hrx h)
    · exact .ignored _ (.inl hrx)
  | rxTimeout =>
    obtain ⟨hrx, rfl⟩ | ⟨hrx, rfl⟩ := (takeRxTimeout_eq_next s t).mp h
    · exact .timedOut hrx
    · exact .ignored _ (.inl hrx)
  | txAccept => exact transition_of_takeTxAccept h
  | txFail =>
    obtain ⟨hf, rfl⟩ | ⟨hf, rfl⟩ := (takeTxFail_eq_next s t).mp h
    · exact .sendFailed hf
    · exact .ignored _ (.inl (decide_eq_false hf))

end Sys2Proof.Machine

/-! PROOF. Control transfer: where events are enabled (10_state.md rule R15), which controller state
they lead to (R16), and what a step answers where nothing is enabled. -/

namespace Sys2Proof.Machine

open Sys2Proof.Safety

/-! ## Enabled events -/

/-- The pins ask for one event, which occurs where it is enabled (R190). -/
theorem portEvent_eventPins {e : Event} {f : Fsm} (h : enabled e f = true) :
    portEvent (eventPins e) f = some e := by
  cases e <;>
    simp_all [enabled, portEvent, eventPins, quietPins, rxReady, txValid, opReady, Fsm.receiving]

/-- An event that occurs at an edge is enabled (R190). -/
theorem enabled_of_portEvent {p : Pins} {e : Event} {f : Fsm} (h : portEvent p f = some e) :
    enabled e f = true := by
  rw [portEvent] at h
  split_ifs at h <;> cases h <;> simp_all [enabled, rxReady, txValid, opReady]

/-- The events of R190 are those of R15: some pins make an event exactly where it is enabled. -/
theorem exists_portEvent_iff (e : Event) (f : Fsm) :
    (∃ p, portEvent p f = some e) ↔ enabled e f = true :=
  ⟨fun ⟨_, h⟩ => enabled_of_portEvent h, fun h => ⟨eventPins e, portEvent_eventPins h⟩⟩

/-- `RXS`, the states that wait for a byte, as a list (R190). -/
theorem receiving_iff_mem (f : Fsm) :
    f.receiving = true ↔ f ∈ [Fsm.tSeek0, .tSeek1, .tRead, .rHdr, .rLen, .rPay, .rCsum] := by
  cases f <;> decide

theorem busy_eq_false_iff (f : Fsm) : f.busy = false ↔ f = .idle ∨ f = .dead := by
  cases f <;> decide

theorem busy_of_receiving {f : Fsm} (h : f.receiving = true) : f.busy = true := by
  cases f <;> simp_all [Fsm.receiving, Fsm.busy]

theorem cancelOperation_not_busy {s : State} (h : s.fsm.busy = false) : cancelOperation s = s := by
  obtain h | h := (busy_eq_false_iff s.fsm).mp h
  · exact cancelOperation_idle s h
  · exact cancelOperation_dead s h

/-- An event that is not enabled changes nothing (log entry 3). -/
theorem takeEvent_not_enabled {e : Event} {s : State} (h : enabled e s.fsm = false) :
    takeEvent e s = .next s := by
  cases e with
  | reset | cancel => cases h
  | hostReq r => exact exec_host_busy (encode_decodeHost r) (by simpa [enabled] using h)
  | rxByte b => exact if_neg (by simpa [enabled] using h)
  | rxTimeout => exact if_neg (by simpa [enabled] using h)
  | txAccept => exact if_neg (by simpa [enabled] using h)
  | txFail => exact if_neg (by simpa [enabled] using h)

/-- Settles O12: every clause reads off `enabled`, which is R15's table. -/
theorem enabledEventTable : Obligations.EnabledEventTable := by
  refine ⟨fun f => ?_, fun s hs => ?_, fun s e he => ?_⟩
  · simp only [exists_portEvent_iff, enabled, ← receiving_iff_mem, ← busy_eq_false_iff,
      decide_eq_true_eq, Bool.not_eq_true', implies_true, and_self]
  · rw [takeEvent, cancelOperation_not_busy ((busy_eq_false_iff s.fsm).mpr hs)]
  · refine takeEvent_not_enabled (Bool.not_eq_true _ ▸ fun hen => ?_)
    exact he _ (portEvent_eventPins hen)

/-- Settles O13: the frames by what `exec` of a frame is, the host operations by what `onRequest`
does outside `IDLE`. -/
theorem instructionsOutsideTheirStates : Obligations.InstructionsOutsideTheirStates := by
  intro i s
  refine ⟨fun ⟨f, hf⟩ hrx => ?_, fun ⟨f, hf⟩ htx => ?_, exec_host_busy, exec_host_dead⟩
  · rw [exec_of_encode_rx i f s hf, receiveFrame, takeRxBytes_not_receiving _ s hrx]
  · rw [exec_of_encode_tx i f s hf, transmitFrame, if_neg htx]

/-! ## The transition table -/

theorem Accepted.fsm_eq {r : HostReq} {s t : State} (h : Accepted r s t) (hf : s.fsm = .idle)
    (hw : requestWellFormed r) : t.fsm = requestFsm r := by
  cases h with
  | tlm hsel | build hsel | recv hsel | setfreq hsel | getver hsel => simp [requestFsm, hsel, hf]
  | send hsel => simp [requestFsm, hsel, hw.2 (.inr hsel)]

/-- A refused request stays in `IDLE` (R178). -/
theorem requestFsm_refused {r : HostReq} (hw : ¬ requestWellFormed r) : requestFsm r = .idle := by
  obtain h | h | h | h | h | h | h | h := opSel_cases r
  case inr.inr.inl =>
    rw [requestWellFormed_of_params (.inr h)] at hw
    simp [requestFsm, h, hw]
  case inr.inl | inr.inr.inr.inr.inr.inr.inl | inr.inr.inr.inr.inr.inr.inr => simp [requestFsm, h]
  all_goals exact absurd (requestWellFormed_of_opSel (by simp [h]) (by simp [h])) hw

theorem Received.fsm_eq {b : Byte} {s t : State} (h : Received b s t) :
    t.fsm = tableFsm s (.rxByte b) := by
  cases h with
  | firstHeader hf hb | secondHeader hf hb | header hf hb =>
    simp [tableFsm, hf, hb, Config.tlmHdr, Config.cmdHdr]
  | skipped hf hb | halfHeader hf hb | badHeader hf hb =>
    simp only [Config.tlmHdr, Config.cmdHdr] at hb
    simp [tableFsm, hf, hb, afterError]
  | body hf hc | telemetry _ _ _ _ hf hc => simp [tableFsm, hf, hc]
  | length hf hb | badLength hf hb =>
    simp only [Config.lenMin] at hb
    simp [tableFsm, hf, hb, afterError]
  | payload hf => simp [tableFsm, hf]
  | rejected e hf he => obtain rfl | rfl := he <;> simp [tableFsm, hf, afterError]
  | uncorrelated _ hf | noVersion hf | recvDone _ _ hf | freqDone _ hf | verDone _ _ _ _ hf =>
    simp [tableFsm, hf, afterError]

/-- An event that is not enabled has no row, and Cancel in `IDLE` and `DEAD` stays there (R15). -/
theorem tableFsm_ignored {s : State} {e : Event}
    (h : enabled e s.fsm = false ∨ (e = .cancel ∧ s.fsm.busy = false)) : tableFsm s e = s.fsm := by
  obtain h | ⟨rfl, hb⟩ := h
  · cases e <;> cases hf : s.fsm <;> simp_all [enabled, tableFsm, Fsm.busy, Fsm.receiving]
  · obtain hf | hf := (busy_eq_false_iff s.fsm).mp hb <;> simp [tableFsm, hf]

theorem Transition.fsm_eq {e : Event} {s t : State} (h : Transition s e t) : t.fsm = tableFsm s e := by
  cases h with
  | reset => rfl
  | cancelled hf => cases hs : s.fsm <;> simp_all [tableFsm, Fsm.busy]
  | ignored e h => exact (tableFsm_ignored h).symm
  | refusedDead r hf => simp [tableFsm, hf]
  | refused r hf hw => simp [tableFsm, hf, requestFsm_refused hw]
  | accepted hf hw h => simp only [tableFsm, hf]; exact h.fsm_eq hf hw
  | received hf h => exact h.fsm_eq
  | timedOut hf => simp [tableFsm, hf, afterError]
  | sentByte b hf hi => simp [tableFsm, hf, hi]
  | sentFrame b hf hi hop => simp [tableFsm, hf, ← hi, hop]
  | sentRequest b hf hi hop => obtain hop | hop := hop <;> simp [tableFsm, hf, ← hi, hop]
  | sendFailed hf => simp [tableFsm, hf]

/-- Settles O14, row by row of the inversion. -/
theorem transitionTable : Obligations.TransitionTable :=
  fun _ _ _ h => (transition_of_takeEvent h).fsm_eq

end Sys2Proof.Machine

/-! PROOF. Which event writes which register (10_state.md rules R12 and R17 to R22): for each group of
registers, what an accepted request and a received byte do to it, then every event. -/

namespace Sys2Proof.Machine

open Sys2Proof.Safety

/-- A request is not ignored in `IDLE` (R15). -/
theorem not_idle_of_ignored {s : State} {e : Event}
    (h : enabled e s.fsm = false ∨ (e = .cancel ∧ s.fsm.busy = false)) (r : HostReq)
    (he : e = .hostReq r) : s.fsm ≠ .idle := by
  subst he
  rintro hf
  simp [enabled, hf, Fsm.busy] at h

/-! ## `op`, `req_id` and the transmit buffer -/

theorem length_buildCommand (id : Byte) (params : List Byte) :
    (buildCommand id params).length = params.length + 4 := by
  simp [buildCommand, requestBody]

/-- What a well-formed request puts into `t` is a frame of the format: a known id, at most 251
parameters (R77, R120). -/
theorem requestedFrame_eq_some {r : HostReq} {f : List Byte} (hw : requestWellFormed r)
    (h : requestedFrame r = some f) :
    ∃ id params, (cmdOfByte id).isSome = true ∧ params.length ≤ Config.pMax ∧
      f = buildCommand id params := by
  rw [requestedFrame] at h
  split_ifs at h with h12 h4 h5 <;> cases h
  · have hacc := (requestWellFormed_of_params h12).mp hw
    rw [requestAccepted, Bool.and_eq_true, decide_eq_true_eq] at hacc
    exact ⟨_, _, hacc.1, (List.length_take_le _ _).trans hacc.2, rfl⟩
  · exact ⟨_, _, rfl, by simp [freqParams, Config.pMax], rfl⟩
  · exact ⟨_, _, rfl, Nat.zero_le _, rfl⟩

theorem Accepted.request_registers {r : HostReq} {s t : State} (h : Accepted r s t) :
    opNumber t.op = r.opSel ∧
      t.reqId = if r.opSel = 4#3 then 0x03#8 else if r.opSel = 5#3 then 0x01#8 else s.reqId := by
  cases h with
  | tlm hsel | build hsel | send hsel | recv hsel | setfreq hsel | getver hsel =>
    simp [hsel, opNumber]

theorem Accepted.loads {r : HostReq} {s t : State} {f : List Byte} (h : Accepted r s t)
    (hr : requestedFrame r = some f) :
    t.t = s.t.writeBytes 0 f ∧ t.txLen = BitVec.ofNat 8 f.length ∧ t.txIdx = 0#8 := by
  cases h with
  | tlm _ hframe | recv _ hframe => cases hframe.symm.trans hr
  | build _ hframe | send _ hframe | setfreq _ hframe | getver _ hframe =>
    cases hframe.symm.trans hr
    exact ⟨rfl, rfl, rfl⟩

theorem Accepted.loads_nothing {r : HostReq} {s t : State} (h : Accepted r s t)
    (hr : requestedFrame r = none) : t.t = s.t ∧ t.txLen = s.txLen ∧ t.txIdx = s.txIdx := by
  cases h with
  | tlm _ hframe | recv _ hframe => exact ⟨rfl, rfl, rfl⟩
  | build _ hframe | send _ hframe | setfreq _ hframe | getver _ hframe =>
    cases hframe.symm.trans hr

/-- What a received byte leaves: the request in progress and the frame it is sent in. -/
theorem Received.keeps_request {b : Byte} {s t : State} (h : Received b s t) :
    t.op = s.op ∧ t.reqId = s.reqId ∧ t.t = s.t ∧ t.txLen = s.txLen ∧ t.txIdx = s.txIdx := by
  cases h <;> exact ⟨rfl, rfl, rfl, rfl, rfl⟩

/-- An event is Reset, or the acceptance of a request, or leaves the request in progress as it is, and
then it is no well-formed request taken in `IDLE` (R17, R18). -/
theorem Transition.request_cases {e : Event} {s t : State} (h : Transition s e t) :
    (e = .reset ∧ t = resetRegisters s) ∨
    (∃ r, e = .hostReq r ∧ s.fsm = .idle ∧ requestWellFormed r ∧ Accepted r s t) ∨
    ((∀ r, e = .hostReq r → s.fsm = .idle → ¬ requestWellFormed r) ∧
      t.op = s.op ∧ t.reqId = s.reqId ∧ t.t = s.t ∧ t.txLen = s.txLen ∧
      (t.txIdx = s.txIdx ∨ (e = .txAccept ∧ s.txIdx.toNat + 1 ≤ s.txLen.toNat ∧
        t.txIdx = s.txIdx + 1#8))) := by
  cases h with
  | reset => exact .inl ⟨rfl, rfl⟩
  | accepted hf hw h => exact .inr (.inl ⟨_, rfl, hf, hw, h⟩)
  | ignored e h =>
    exact .inr (.inr ⟨fun r he hf => absurd hf (not_idle_of_ignored h r he),
      rfl, rfl, rfl, rfl, .inl rfl⟩)
  | refusedDead r hf =>
    refine .inr (.inr ⟨fun _ _ hi => ?_, rfl, rfl, rfl, rfl, .inl rfl⟩)
    cases hf.symm.trans hi
  | refused r hf hw =>
    exact .inr (.inr ⟨fun _ he _ => by cases he; exact hw, rfl, rfl, rfl, rfl, .inl rfl⟩)
  | received hf h =>
    obtain ⟨hop, hid, ht, hlen, hidx⟩ := h.keeps_request
    exact .inr (.inr ⟨fun _ he => (by cases he), hop, hid, ht, hlen, .inl hidx⟩)
  | cancelled | timedOut | sendFailed =>
    exact .inr (.inr ⟨fun _ he => (by cases he), rfl, rfl, rfl, rfl, .inl rfl⟩)
  | sentByte b hf hi | sentFrame b hf hi | sentRequest b hf hi =>
    exact .inr (.inr ⟨fun _ he => (by cases he), rfl, rfl, rfl, rfl, .inr ⟨rfl, by omega, rfl⟩⟩)

/-- Settles O52. -/
theorem requestRegistersAreLatched : Obligations.RequestRegistersAreLatched := by
  intro s t e h hne
  obtain ⟨he, -⟩ | ⟨r, rfl, hf, hw, hacc⟩ | ⟨hno, hop, hid, -⟩ := (transition_of_takeEvent h).request_cases
  · exact absurd he hne
  · exact ⟨fun _ he _ _ => by cases he; exact hacc.request_registers,
      fun hno => absurd hw (hno r rfl hf)⟩
  · exact ⟨fun r he hf hw => absurd hw (hno r he hf), fun _ => ⟨hop, hid⟩⟩

/-- Settles O53. -/
theorem transmitBufferIsLatched : Obligations.TransmitBufferIsLatched := by
  intro s t e h hne
  obtain ⟨he, -⟩ | ⟨r, rfl, hf, hw, hacc⟩ | ⟨hno, -, -, ht, hlen, hidx⟩ :=
    (transition_of_takeEvent h).request_cases
  · exact absurd he hne
  · refine ⟨fun r' f he _ _ hr => ?_, fun hno => ?_⟩
    · cases he
      obtain ⟨ht, hlen, hidx⟩ := hacc.loads hr
      obtain ⟨id, params, -, hp, rfl⟩ := requestedFrame_eq_some hw hr
      simp only [Config.pMax] at hp
      have hl := length_buildCommand id params
      refine ⟨fun a => ?_, ?_, by omega, hidx⟩
      · rw [ht, Memory.read_writeBytes]; simp
      · rw [hlen, BitVec.toNat_ofNat]; omega
    · obtain ⟨ht, hlen, hidx⟩ := hacc.loads_nothing (hno r rfl hf hw)
      exact ⟨ht, hlen, fun _ => hidx⟩
  · refine ⟨fun r f he hf hw _ => absurd hw (hno r he hf), fun _ => ⟨ht, hlen, fun he => ?_⟩⟩
    exact hidx.resolve_right fun ⟨he', _⟩ => he he'

/-! ## The receive buffer -/

theorem Accepted.x_eq {r : HostReq} {s t : State} (h : Accepted r s t) : t.x = s.x := by
  cases h <;> rfl

theorem Transition.x_eq {e : Event} {s t : State} (h : Transition s e t) (hne : e ≠ .reset)
    (hrx : ∀ b, e ≠ .rxByte b) : t.x = s.x := by
  cases h with
  | reset => exact absurd rfl hne
  | received => exact absurd rfl (hrx _)
  | accepted _ _ h => exact h.x_eq
  | cancelled | ignored | refusedDead | refused | timedOut | sentByte | sentFrame | sentRequest
    | sendFailed => rfl

/-- A received byte that is stored goes to `x[cnt]` (R12). -/
theorem Received.x_eq {b : Byte} {s t : State} (h : Received b s t) (hs : FrameInProgress s) :
    t.x = s.x ∨ t.x = s.x.write s.cnt.toNat b := by
  cases h with
  | firstHeader hf | header hf =>
    simp only [FrameInProgress, hf] at hs
    exact .inr (by simp [hs.2])
  | secondHeader hf | length hf =>
    simp only [FrameInProgress, hf] at hs
    exact .inr (by simp [hs.2.1])
  | telemetry _ _ _ _ _ hc => exact .inr (by simp [hc])
  | skipped | halfHeader | badHeader | badLength => exact .inl rfl
  | body | payload | rejected | uncorrelated | noVersion | recvDone | freqDone | verDone =>
    exact .inr rfl

/-- Settles O54. -/
theorem receiveBufferFrame : Obligations.ReceiveBufferFrame := by
  refine ⟨fun s t e h => (transition_of_takeEvent h).x_eq, fun s t b hs h => ?_⟩
  have hx : t.x = s.x ∨ t.x = s.x.write s.cnt.toNat b := by
    cases transition_of_takeEvent h with
    | received _ h => exact h.x_eq hs.frame
    | ignored => exact .inl rfl
  obtain hx | hx := hx
  · exact ⟨fun _ _ => by rw [hx], .inl (by rw [hx])⟩
  · exact ⟨fun a ha => by rw [hx, Memory.read_write_other _ _ ha],
      .inr (by rw [hx, Memory.read_write_same])⟩

/-! ## The telemetry result registers -/

theorem Accepted.keeps_telemetry {r : HostReq} {s t : State} (h : Accepted r s t) :
    t.dist = s.dist ∧ t.strength = s.strength ∧ t.tempRaw = s.tempRaw ∧ t.csumOk = s.csumOk ∧
      t.tlmValid = s.tlmValid := by
  cases h <;> exact ⟨rfl, rfl, rfl, rfl, rfl⟩

theorem Received.telemetry_registers {b : Byte} {s t : State} (h : Received b s t) :
    (t.dist = s.dist ∧ t.strength = s.strength ∧ t.tempRaw = s.tempRaw ∧ t.csumOk = s.csumOk ∧
      t.tlmValid = s.tlmValid) ∨
    (s.fsm = .tRead ∧ s.cnt = 8#8 ∧ t.tlmValid = true ∧
      t.out = s.out ++ [.res (.tlmFrame t.dist t.strength t.tempRaw t.csumOk)]) := by
  cases h
  case telemetry hf hc => exact .inr ⟨hf, hc, rfl, rfl⟩
  all_goals exact .inl ⟨rfl, rfl, rfl, rfl, rfl⟩

theorem Transition.telemetry_registers {e : Event} {s t : State} (h : Transition s e t)
    (hne : e ≠ .reset) :
    (t.dist = s.dist ∧ t.strength = s.strength ∧ t.tempRaw = s.tempRaw ∧ t.csumOk = s.csumOk ∧
      t.tlmValid = s.tlmValid) ∨
    (s.fsm = .tRead ∧ s.cnt = 8#8 ∧ t.tlmValid = true ∧
      t.out = s.out ++ [.res (.tlmFrame t.dist t.strength t.tempRaw t.csumOk)]) := by
  cases h with
  | reset => exact absurd rfl hne
  | accepted _ _ h => exact .inl h.keeps_telemetry
  | received _ h => exact h.telemetry_registers
  | cancelled | ignored | refusedDead | refused | timedOut | sentByte | sentFrame | sentRequest
    | sendFailed => exact .inl ⟨rfl, rfl, rfl, rfl, rfl⟩

/-- Settles O55. -/
theorem telemetryRegistersAreWrittenTogether : Obligations.TelemetryRegistersAreWrittenTogether :=
  fun _ _ _ h => (transition_of_takeEvent h).telemetry_registers

/-! ## The error registers -/

/-- A hard error is one ERROR on the result port (R180). -/
@[simp] theorem results_raiseError (e : ErrCode) (k : Bool) (s : State) :
    (raiseError e k s).results = s.results ++ [.error e k] := by
  simp [State.results]

/-- A received byte raises a hard error in the operation, or it leaves the error registers and no
result is an ERROR. Only a correlation error carries the correlation bit (R159, R180). -/
theorem Received.raises_or_keeps {b : Byte} {s t : State} (h : Received b s t) :
    (∃ c k x n, t = raiseError c k { s with x := x, cnt := n } ∧ (k = true → c = .unknownCommand ∧
      s.fsm = .rCsum ∧ (s.op = .setfreq ∨ s.op = .getver) ∧ s.x.read 2 ≠ some s.reqId)) ∨
    (t.err = s.err ∧ t.errCorr = s.errCorr ∧ ∀ c k, t.results ≠ s.results ++ [.error c k]) := by
  cases h with
  | badHeader | badLength | rejected | noVersion =>
    exact .inl ⟨_, _, _, _, rfl, fun hk => by cases hk⟩
  | uncorrelated id hf hop hid hreq =>
    refine .inl ⟨_, _, _, _, rfl, fun _ => ⟨rfl, hf, hop, fun h => hreq ?_⟩⟩
    exact Option.some.inj (hid.symm.trans h)
  | firstHeader | skipped | secondHeader | body | header | length | payload | halfHeader | telemetry
    | recvDone | freqDone | verDone =>
    exact .inr ⟨rfl, rfl, fun c k => by
      simp [State.results, reportTelemetry, emit, recordResponse]⟩

theorem Accepted.clears_errors {r : HostReq} {s t : State} (h : Accepted r s t) :
    t.err = .none ∧ t.errCorr = false := by
  cases h <;> exact ⟨rfl, rfl⟩

/-- An event clears the error registers (Reset, an accepted request), or keeps them and reports no
ERROR, or writes them with the ERROR it reports (R22). -/
theorem Transition.error_cases {e : Event} {s t : State} (h : Transition s e t) :
    ((e = .reset ∨ (s.fsm = .idle ∧ ∃ r, e = .hostReq r ∧ requestWellFormed r)) ∧
      t.err = .none ∧ t.errCorr = false) ∨
    (e ≠ .reset ∧ (∀ r, e = .hostReq r → s.fsm = .idle → ¬ requestWellFormed r) ∧
      ((t.err = s.err ∧ t.errCorr = s.errCorr ∧ ∀ c k, t.results ≠ s.results ++ [.error c k]) ∨
        (e ≠ .cancel ∧ t.out = s.out ++ [.res (.error t.err t.errCorr)] ∧
          (t.errCorr = true → t.err = .unknownCommand ∧ s.fsm = .rCsum ∧
            (s.op = .setfreq ∨ s.op = .getver) ∧ s.x.read 2 ≠ some s.reqId)))) := by
  cases h with
  | reset => exact .inl ⟨.inl rfl, rfl, rfl⟩
  | accepted hf hw h => exact .inl ⟨.inr ⟨hf, _, rfl, hw⟩, h.clears_errors⟩
  | ignored e h =>
    refine .inr ⟨?_, fun r he hf => absurd hf (not_idle_of_ignored h r he),
      .inl ⟨rfl, rfl, fun c k => by simp⟩⟩
    rintro rfl
    simp [enabled] at h
  | refusedDead r hf =>
    refine .inr ⟨fun he => (by cases he), fun _ _ hi => ?_,
      .inr ⟨fun he => (by cases he), rfl, fun hk => (by cases hk)⟩⟩
    cases hf.symm.trans hi
  | refused r hf hw =>
    exact .inr ⟨fun he => (by cases he), fun _ he _ => by cases he; exact hw,
      .inr ⟨fun he => (by cases he), rfl, fun hk => (by cases hk)⟩⟩
  | received hf h =>
    refine .inr ⟨fun he => (by cases he), fun _ he => (by cases he), ?_⟩
    obtain ⟨c, k, x, n, rfl, hk⟩ | hkeep := h.raises_or_keeps
    · exact .inr ⟨fun he => (by cases he), rfl, hk⟩
    · exact .inl hkeep
  | timedOut | sendFailed =>
    exact .inr ⟨fun he => (by cases he), fun _ he => (by cases he),
      .inr ⟨fun he => (by cases he), rfl, fun hk => (by cases hk)⟩⟩
  | cancelled | sentByte | sentFrame | sentRequest =>
    exact .inr ⟨fun he => (by cases he), fun _ he => (by cases he),
      .inl ⟨rfl, rfl, fun c k => by simp [State.results, emit, txByte]⟩⟩

/-- Settles O57. -/
theorem errorRegistersFollowTheEvents : Obligations.ErrorRegistersFollowTheEvents := by
  intro s t e h
  obtain ⟨hclear, herr, hcorr⟩ | ⟨hne, hno, hrow⟩ := (transition_of_takeEvent h).error_cases
  · refine ⟨fun _ => ⟨herr, hcorr⟩, ?_, fun hne hno => ?_, fun hk => ?_⟩
    · rintro rfl
      simp at hclear
    · exact absurd hclear (not_or_intro hne hno)
    · rw [hcorr] at hk
      cases hk
  · refine ⟨fun hclear => ?_, fun he => ?_, fun _ _ => ?_, fun hk => ?_⟩
    · obtain he | ⟨hf, r, he, hw⟩ := hclear
      · exact absurd he hne
      · exact absurd hw (hno r he hf)
    · obtain ⟨herr, hcorr, -⟩ | ⟨hne, -⟩ := hrow
      · exact ⟨herr, hcorr⟩
      · exact absurd he hne
    · exact hrow.imp_right fun ⟨_, hout, _⟩ => hout
    · obtain ⟨herr, hcorr, -⟩ | ⟨-, -, hbit⟩ := hrow
      · exact .inl ⟨hcorr ▸ hk, herr⟩
      · exact .inr (hbit hk)

/-! ## The response and version registers -/

/-- In a running operation only a Cancel and a hard error hide the response (R20). -/
theorem hidesResponse_busy {e : Event} {s t : State} (hb : s.fsm.busy = true) (he : e ≠ .cancel) :
    hidesResponse e s t ↔ ∃ c k, t.results = s.results ++ [.error c k] := by
  have hidle : s.fsm ≠ .idle := fun hf => by simp [hf, Fsm.busy] at hb
  simp [hidesResponse, hb, he, hidle]

/-- While no operation runs only the acceptance of one that receives hides the response (R20). -/
theorem hidesResponse_not_busy {e : Event} {s t : State} (hb : s.fsm.busy = false) :
    hidesResponse e s t ↔
      s.fsm = .idle ∧ ∃ r, e = .hostReq r ∧ r.opSel ∈ [0#3, 3#3, 4#3, 5#3] := by
  simp [hidesResponse, hb]

theorem not_hidesResponse_ignored {s : State} {e : Event}
    (h : enabled e s.fsm = false ∨ (e = .cancel ∧ s.fsm.busy = false)) : ¬ hidesResponse e s s := by
  rintro (⟨hf, r, he, -⟩ | ⟨-, c, k, hout⟩ | ⟨hb, rfl⟩)
  · exact not_idle_of_ignored h r he hf
  · simp at hout
  · simp [enabled, hb] at h

/-- Codes that select an operation that receives are well-formed by themselves (R77). -/
theorem requestWellFormed_of_receives {r : HostReq} (h : r.opSel ∈ [0#3, 3#3, 4#3, 5#3]) :
    requestWellFormed r := by
  simp only [List.mem_cons, List.not_mem_nil, or_false] at h
  obtain h | h | h | h := h <;> exact requestWellFormed_of_opSel (by simp [h]) (by simp [h])

/-- The response registers keep their values, but for `resp_valid` where the event hides `x`. -/
def KeepsResponse (e : Event) (s t : State) : Prop :=
  t.respId = s.respId ∧ t.respLen = s.respLen ∧ (hidesResponse e s t → t.respValid = false) ∧
    (¬ hidesResponse e s t → t.respValid = s.respValid)

theorem keepsResponse_hidden {e : Event} {s t : State} (hid : t.respId = s.respId)
    (hlen : t.respLen = s.respLen) (hv : t.respValid = false) (h : hidesResponse e s t) :
    KeepsResponse e s t :=
  ⟨hid, hlen, fun _ => hv, fun hn => absurd h hn⟩

theorem keepsResponse_kept {e : Event} {s t : State} (hid : t.respId = s.respId)
    (hlen : t.respLen = s.respLen) (hv : t.respValid = s.respValid) (h : ¬ hidesResponse e s t) :
    KeepsResponse e s t :=
  ⟨hid, hlen, fun hh => absurd hh h, fun _ => hv⟩

/-- The last byte of a response that ends its operation records the response (R141, R160, R161). -/
def RecordsResponse (s t : State) : Prop :=
  t.respValid = true ∧ t.respLen = s.len - 4#8 ∧ s.x.read 2 = some t.respId ∧
    ∃ q, t.out = s.out ++ [.res q] ∧
      ((s.op = .setfreq ∧ q = .freqDone) ∨ (s.op = .recv ∧ ∃ data, q = .recvDone t.respId data) ∨
        (s.op = .getver ∧ q = .verDone t.verPatch t.verMinor t.verMajor))

theorem RecordsResponse.no_error {s t : State} (h : RecordsResponse s t) (c : ErrCode) (k : Bool) :
    t.results ≠ s.results ++ [.error c k] := by
  obtain ⟨-, -, -, q, hout, ⟨-, rfl⟩ | ⟨-, data, rfl⟩ | ⟨-, rfl⟩⟩ := h <;>
    simp [State.results, hout]

/-- A received byte hides the response with a hard error, or leaves it, or records one. -/
theorem Received.response_cases {b : Byte} {s t : State} (h : Received b s t) :
    (t.respId = s.respId ∧ t.respLen = s.respLen ∧ t.respValid = false ∧
      ∃ c k, t.results = s.results ++ [.error c k]) ∨
    (t.respId = s.respId ∧ t.respLen = s.respLen ∧ t.respValid = s.respValid ∧
      ¬ ∃ c k, t.results = s.results ++ [.error c k]) ∨
    (s.fsm = .rCsum ∧ RecordsResponse s t) := by
  cases h with
  | badHeader | badLength | rejected | noVersion | uncorrelated =>
    exact .inl ⟨rfl, rfl, rfl, _, _, results_raiseError _ _ _⟩
  | firstHeader | skipped | secondHeader | body | header | length | payload | halfHeader | telemetry =>
    exact .inr (.inl ⟨rfl, rfl, rfl, by simp [State.results, reportTelemetry, emit]⟩)
  | recvDone id data hf hop hid =>
    exact .inr (.inr ⟨hf, rfl, rfl, hid, _, rfl, .inr (.inl ⟨hop, data, rfl⟩)⟩)
  | freqDone id hf hop hid => exact .inr (.inr ⟨hf, rfl, rfl, hid, _, rfl, .inl ⟨hop, rfl⟩⟩)
  | verDone id p m j hf hop hid =>
    exact .inr (.inr ⟨hf, rfl, rfl, hid, _, rfl, .inr (.inr ⟨hop, rfl⟩)⟩)

theorem Accepted.keepsResponse {r : HostReq} {s t : State} (h : Accepted r s t)
    (hf : s.fsm = .idle) : KeepsResponse (.hostReq r) s t := by
  have hb : s.fsm.busy = false := by rw [hf]; rfl
  cases h with
  | tlm hsel | recv hsel | setfreq hsel | getver hsel =>
    refine keepsResponse_hidden rfl rfl rfl ((hidesResponse_not_busy hb).mpr ⟨hf, r, rfl, ?_⟩)
    simp [hsel]
  | build hsel | send hsel =>
    refine keepsResponse_kept rfl rfl rfl fun hh => ?_
    obtain ⟨-, r', he, hr⟩ := (hidesResponse_not_busy hb).mp hh
    cases he
    simp [hsel] at hr

theorem Transition.response_registers {e : Event} {s t : State} (h : Transition s e t)
    (hne : e ≠ .reset) :
    KeepsResponse e s t ∨
      (¬ hidesResponse e s t ∧ s.fsm = .rCsum ∧ (∃ b, e = .rxByte b) ∧ RecordsResponse s t) := by
  cases h with
  | reset => exact absurd rfl hne
  | accepted hf _ h => exact .inl (h.keepsResponse hf)
  | ignored e h => exact .inl (keepsResponse_kept rfl rfl rfl (not_hidesResponse_ignored h))
  | refusedDead r hf =>
    refine .inl (keepsResponse_kept rfl rfl rfl fun hh => ?_)
    obtain ⟨hi, -⟩ := (hidesResponse_not_busy (by rw [hf]; rfl)).mp hh
    cases hf.symm.trans hi
  | refused r hf hw =>
    refine .inl (keepsResponse_kept rfl rfl rfl fun hh => ?_)
    obtain ⟨-, r', he, hr⟩ := (hidesResponse_not_busy (by rw [hf]; rfl)).mp hh
    cases he
    exact hw (requestWellFormed_of_receives hr)
  | cancelled hb => exact .inl (keepsResponse_hidden rfl rfl rfl (.inr (.inr ⟨hb, rfl⟩)))
  | timedOut hf =>
    exact .inl (keepsResponse_hidden rfl rfl rfl
      (.inr (.inl ⟨busy_of_receiving hf, _, _, results_raiseError _ _ _⟩)))
  | sendFailed hf =>
    exact .inl (keepsResponse_hidden rfl rfl rfl
      (.inr (.inl ⟨by rw [hf]; rfl, _, _, results_raiseError _ _ _⟩)))
  | sentByte b hf | sentFrame b hf | sentRequest b hf =>
    refine .inl (keepsResponse_kept rfl rfl rfl fun hh => ?_)
    obtain ⟨c, k, hout⟩ := (hidesResponse_busy (by rw [hf]; rfl) (by simp)).mp hh
    simp [State.results, emit, txByte] at hout
  | @received b t hf h =>
    have hides := hidesResponse_busy (t := t) (e := .rxByte b) (busy_of_receiving hf) (by simp)
    obtain ⟨hid, hlen, hv, herr⟩ | ⟨hid, hlen, hv, hno⟩ | ⟨hc, hrec⟩ := h.response_cases
    · exact .inl (keepsResponse_hidden hid hlen hv (hides.mpr herr))
    · exact .inl (keepsResponse_kept hid hlen hv fun hh => hno (hides.mp hh))
    · refine .inr ⟨fun hh => ?_, hc, ⟨b, rfl⟩, hrec⟩
      obtain ⟨c, k, herr⟩ := hides.mp hh
      exact hrec.no_error c k herr

/-- The version registers keep their values. -/
def KeepsVersion (s t : State) : Prop :=
  t.verPatch = s.verPatch ∧ t.verMinor = s.verMinor ∧ t.verMajor = s.verMajor

/-- The event is the acceptance of a GETVER (R157). -/
def acceptsGetver (e : Event) (s : State) : Prop :=
  ∃ r, e = .hostReq r ∧ s.fsm = .idle ∧ r.opSel = 5#3

theorem Received.version_registers {b : Byte} {s t : State} (h : Received b s t) :
    (KeepsVersion s t ∧ t.verValid = s.verValid) ∨
      (s.fsm = .rCsum ∧ s.op = .getver ∧ t.verValid = true ∧
        t.out = s.out ++ [.res (.verDone t.verPatch t.verMinor t.verMajor)]) := by
  cases h
  case verDone hf hop hid hv => exact .inr ⟨hf, hop, rfl, rfl⟩
  all_goals exact .inl ⟨⟨rfl, rfl, rfl⟩, rfl⟩

theorem Accepted.version_registers {r : HostReq} {s t : State} (h : Accepted r s t) :
    KeepsVersion s t ∧ (r.opSel = 5#3 → t.verValid = false) ∧
      (r.opSel ≠ 5#3 → t.verValid = s.verValid) := by
  cases h
  case getver hsel _ => exact ⟨⟨rfl, rfl, rfl⟩, fun _ => rfl, fun h => absurd hsel h⟩
  all_goals exact ⟨⟨rfl, rfl, rfl⟩, fun h => by simp_all, fun _ => rfl⟩

theorem Transition.version_cases {e : Event} {s t : State} (h : Transition s e t)
    (hne : e ≠ .reset) :
    (acceptsGetver e s ∧ KeepsVersion s t ∧ t.verValid = false) ∨
    (¬ acceptsGetver e s ∧ KeepsVersion s t ∧ t.verValid = s.verValid) ∨
    (¬ acceptsGetver e s ∧ s.fsm = .rCsum ∧ s.op = .getver ∧ (∃ b, e = .rxByte b) ∧
      t.verValid = true ∧ t.out = s.out ++ [.res (.verDone t.verPatch t.verMinor t.verMajor)]) := by
  cases h with
  | reset => exact absurd rfl hne
  | @accepted r t hf _ h =>
    obtain ⟨hk, h5, hn5⟩ := h.version_registers
    by_cases hsel : r.opSel = 5#3
    · exact .inl ⟨⟨r, rfl, hf, hsel⟩, hk, h5 hsel⟩
    · exact .inr (.inl ⟨fun ⟨_, he, _, h⟩ => hsel (by cases he; exact h), hk, hn5 hsel⟩)
  | ignored e h =>
    exact .inr (.inl ⟨fun ⟨r, he, hf, _⟩ => not_idle_of_ignored h r he hf, ⟨rfl, rfl, rfl⟩, rfl⟩)
  | refusedDead r hf =>
    exact .inr (.inl ⟨fun ⟨_, _, hi, _⟩ => (by cases hf.symm.trans hi), ⟨rfl, rfl, rfl⟩, rfl⟩)
  | refused r hf hw =>
    refine .inr (.inl ⟨?_, ⟨rfl, rfl, rfl⟩, rfl⟩)
    rintro ⟨r', he, -, hsel⟩
    cases he
    exact hw (requestWellFormed_of_receives (by simp [hsel]))
  | received hf h =>
    have hno : ∀ b, ¬ acceptsGetver (.rxByte b) s := fun _ ⟨_, he, _⟩ => by cases he
    obtain ⟨hk, hv⟩ | ⟨hc, hop, hv, hout⟩ := h.version_registers
    · exact .inr (.inl ⟨hno _, hk, hv⟩)
    · exact .inr (.inr ⟨hno _, hc, hop, ⟨_, rfl⟩, hv, hout⟩)
  | cancelled | timedOut | sentByte | sentFrame | sentRequest | sendFailed =>
    exact .inr (.inl ⟨fun ⟨_, he, _⟩ => (by cases he), ⟨rfl, rfl, rfl⟩, rfl⟩)

/-- Settles O56. -/
theorem responseAndVersionRegisters : Obligations.ResponseAndVersionRegisters := by
  intro s t e h hne
  have hrow := transition_of_takeEvent h
  refine ⟨hrow.response_registers hne, ?_⟩
  obtain ⟨hget, ⟨hp, hm, hj⟩, hv⟩ | ⟨hget, ⟨hp, hm, hj⟩, hv⟩ | ⟨hget, hver⟩ := hrow.version_cases hne
  · exact ⟨fun _ => hv, .inl ⟨hp, hm, hj, fun hno => absurd hget hno⟩⟩
  · exact ⟨fun h => absurd h hget, .inl ⟨hp, hm, hj, fun _ => hv⟩⟩
  · exact ⟨fun h => absurd h hget, .inr hver⟩

end Sys2Proof.Machine

/-! PROOF. The invariant: it holds at reset, it says that what the block and the host read holds
values, it is kept by every step, and no step stops under it (10_state.md rules R13, R18, R20, R22,
R26, R27). -/

namespace Sys2Proof.Machine

open Sys2Proof.Safety

/-- Settles O15. -/
theorem invariantAtReset : Obligations.InvariantAtReset where
  buffers := ⟨Memory.wf_nil, Memory.wf_nil, rfl, rfl⟩
  request := ⟨Nat.le_refl _, .inl rfl⟩
  response := fun hv => by cases hv
  errors := ⟨fun hc => (by cases hc), fun hb => (by cases hb), fun hd => (by cases hd)⟩
  results := ⟨fun h => (by cases h), fun h => (by cases h), fun h => (by cases h),
    fun _ => ⟨rfl, rfl, rfl, rfl⟩⟩
  frame := .inl rfl

/-! ## Visible bytes hold values -/

/-- Each of the bytes read together is read alone. -/
theorem Memory.isSome_read_of_readBytes {m : Memory} {n k : Nat}
    (h : (m.readBytes 0 n).isSome = true) (hk : k < n) : (m.read k).isSome = true := by
  obtain ⟨l, hl⟩ := Option.isSome_iff_exists.mp h
  obtain ⟨hlen, hread⟩ := (Memory.readBytes_eq_some m 0 n l).mp hl
  have hk' := hread k hk
  rw [Nat.zero_add] at hk'
  rw [hk', List.getElem?_eq_getElem (by omega), Option.isSome_some]

theorem isSome_if_lt {n i : Nat} {o : Option Byte} (h : i < n → o.isSome = true) :
    (if i < n then o else none).isSome = true ↔ i < n := by
  split <;> simp_all

/-- Settles O60. -/
theorem hostReadsOnlyVisibleBytes : Obligations.HostReadsOnlyVisibleBytes := by
  refine ⟨fun s i hs => ⟨fun hb => ?_, fun hb => ?_⟩, fun e corr s i => ?_, fun s i hb => ?_⟩
  · simp [hostReadX, hostReadT, hb]
  · rw [hostReadX, hostReadT, hb]
    exact ⟨isSome_if_lt (Memory.isSome_read_of_readBytes hs.buffers.xVisible),
      isSome_if_lt (Memory.isSome_read_of_readBytes hs.buffers.tVisible)⟩
  · simp [hostReadX]
  · simp [hostReadX, cancelOperation_busy s hb]

/-- A byte below `cnt` holds a value. -/
theorem read_of_visibleX {s : State} {f : List Byte} (h : s.visibleX = some f) {i : Nat}
    (hi : i < s.cnt.toNat) : ∃ b, s.x.read i = some b :=
  Option.isSome_iff_exists.mp (Memory.isSome_read_of_readBytes (Option.isSome_iff_exists.mpr ⟨f, h⟩) hi)

/-- The byte at an index below `cnt` is that of the visible frame. -/
theorem read_eq_of_visibleX {s : State} {f : List Byte} (h : s.visibleX = some f) {i : Nat}
    (hi : i < s.cnt.toNat) : s.x.read i = f[i]? := by
  obtain ⟨-, hread⟩ := (Memory.readBytes_eq_some _ _ _ _).mp h
  simpa using hread i hi

/-- Bytes of `x` below `cnt` are read together too. -/
theorem readBytes_of_visibleX {s : State} {f : List Byte} (h : s.visibleX = some f) {start n : Nat}
    (hn : start + n ≤ s.cnt.toNat) : s.x.readBytes start n = some ((f.drop start).take n) := by
  have hlen := length_of_visibleX h
  rw [Memory.readBytes_eq_some]
  refine ⟨by simp; omega, fun k hk => ?_⟩
  rw [read_eq_of_visibleX h (by omega), List.getElem?_take, if_pos hk, List.getElem?_drop]

/-- A block that waits for a byte has room for it (R40). -/
theorem cnt_lt_bufSize {s : State} (hs : FrameInProgress s) (hrx : s.fsm.receiving = true) :
    s.cnt.toNat < Config.bufSize := by
  have hlen := s.len.isLt
  rw [Config.bufSize]
  cases hf : s.fsm <;> simp only [FrameInProgress, hf] at hs
  case tSeek0 => simp [hs.2]
  case tSeek1 => simp [hs.2.1]
  case tRead => obtain ⟨-, -, hc, -⟩ := hs; omega
  case rHdr => simp [hs.2]
  case rLen => simp [hs.2.1]
  case rPay => obtain ⟨-, -, hc, -⟩ := hs; omega
  case rCsum => obtain ⟨-, -, hc, -⟩ := hs; omega
  case idle | cSend | dead => simp [hf, Fsm.receiving] at hrx

/-! ## No step stops -/

theorem readTelemetry_answers {s : State} (b : Byte) (hs : FrameInProgress s) (hf : s.fsm = .tRead) :
    ∃ t, readTelemetry b s = .next t := by
  simp only [FrameInProgress, hf] at hs
  obtain ⟨-, -, hc, f, hv, -⟩ := hs
  by_cases h8 : s.cnt.toNat < 8
  · exact ⟨_, (readTelemetry_eq_next b s _).mpr
      (.inl ⟨h8, (readBody_eq_next b s _).mpr ⟨by rw [Config.bufSize]; omega, rfl⟩⟩)⟩
  · have read (i : Nat) (hi : i < 8) := read_of_visibleX hv (i := i) (by omega)
    obtain ⟨_, h2⟩ := read 2 (by decide)
    obtain ⟨_, h3⟩ := read 3 (by decide)
    obtain ⟨_, h4⟩ := read 4 (by decide)
    obtain ⟨_, h5⟩ := read 5 (by decide)
    obtain ⟨_, h6⟩ := read 6 (by decide)
    obtain ⟨_, h7⟩ := read 7 (by decide)
    exact ⟨_, (readTelemetry_eq_next b s _).mpr (.inr ⟨by omega,
      (readLast_eq_next b s _).mpr ⟨_, _, _, _, _, _, h2, h3, h4, h5, h6, h7, rfl⟩⟩)⟩

/-- A response all of whose bytes are stored is finished: what is read of it lies below `len`. -/
theorem finishResponse_answers {s : State} {id : Byte} (hop : receivesResponse s.op)
    (hx : ∀ i, i + 1 < s.len.toNat → ∃ b, s.x.read i = some b)
    (hdata : ∃ data, s.x.readBytes 3 (s.len.toNat - 4) = some data) :
    ∃ t, finishResponse id s = .next t := by
  have hcorr {k : Byte → State → Out} (hk : ∃ t, k id s = .next t) :
      ∃ t, correlate id s k = .next t := by
    rw [correlate]
    split
    · exact ⟨_, rfl⟩
    · exact hk
  obtain hop | hop | hop := hop <;> rw [finishResponse, hop]
  · obtain ⟨data, hdata⟩ := hdata
    exact ⟨_, (finishRecv_eq_next id s _).mpr ⟨data, hdata, rfl⟩⟩
  · exact hcorr ⟨_, rfl⟩
  · refine hcorr ?_
    by_cases h7 : s.len.toNat < 7
    · exact ⟨_, (finishGetver_eq_next id s _).mpr (.inl ⟨h7, rfl⟩)⟩
    · obtain ⟨p, hp⟩ := hx 3 (by omega)
      obtain ⟨m, hm⟩ := hx 4 (by omega)
      obtain ⟨j, hj⟩ := hx 5 (by omega)
      exact ⟨_, (finishGetver_eq_next id s _).mpr (.inr ⟨by omega, p, m, j, hp, hm, hj, rfl⟩)⟩

theorem receiveChecksum_answers {s : State} (b : Byte) (hs : FrameInProgress s)
    (hf : s.fsm = .rCsum) : ∃ t, receiveChecksum b s = .next t := by
  have hroom := cnt_lt_bufSize hs (by rw [hf]; rfl)
  simp only [FrameInProgress, hf] at hs
  obtain ⟨hop, hmin, hc, f, hv, -⟩ := hs
  obtain ⟨id, hid⟩ := read_of_visibleX hv (i := 2) (by omega)
  simp only [receiveChecksum_eq_next]
  cases hverdict : frameVerdict id s.acc b with
  | unknownCommand => exact ⟨_, hroom, id, hid, .inl ⟨hverdict, rfl⟩⟩
  | badChecksum => exact ⟨_, hroom, id, hid, .inr (.inl ⟨hverdict, rfl⟩)⟩
  | good =>
    have hbytes (i : Nat) (hi : i + 1 < s.len.toNat) :
        ∃ c, (s.x.write s.cnt.toNat b).read i = some c := by
      obtain ⟨c, hread⟩ := read_of_visibleX hv (i := i) (by omega)
      exact ⟨c, (Memory.read_write_other _ _ (by omega)).trans hread⟩
    have hdata : (s.x.write s.cnt.toNat b).readBytes 3 (s.len.toNat - 4) =
        some ((f.drop 3).take (s.len.toNat - 4)) :=
      (Memory.readBytes_write_behind _ _ (by omega)).trans (readBytes_of_visibleX hv (by omega))
    obtain ⟨t, ht⟩ := finishResponse_answers (id := id)
      (s := { s with x := s.x.write s.cnt.toNat b, cnt := s.len }) hop hbytes ⟨_, hdata⟩
    exact ⟨t, hroom, id, hid, .inr (.inr ⟨hverdict, ht⟩)⟩

theorem receiveStep_answers {s : State} (b : Byte) (hs : FrameInProgress s) :
    ∃ t, receiveStep b s = .next t := by
  cases hf : s.fsm <;> simp only [receiveStep, hf]
  case tSeek0 =>
    by_cases hb : b = Config.tlmHdr
    · exact ⟨_, (seekFirst_eq_next b s _).mpr (.inl ⟨hb, rfl⟩)⟩
    · exact ⟨_, (seekFirst_eq_next b s _).mpr (.inr ⟨hb, rfl⟩)⟩
  case tSeek1 =>
    by_cases hb : b = Config.tlmHdr
    · exact ⟨_, (seekSecond_eq_next b s _).mpr (.inl ⟨hb, rfl⟩)⟩
    · exact ⟨_, (seekSecond_eq_next b s _).mpr (.inr ⟨hb, rfl⟩)⟩
  case tRead => exact readTelemetry_answers b hs hf
  case rHdr =>
    by_cases hb : b = Config.cmdHdr
    · exact ⟨_, (receiveHeader_eq_next b s _).mpr (.inl ⟨hb, rfl⟩)⟩
    · exact ⟨_, (receiveHeader_eq_next b s _).mpr (.inr ⟨hb, rfl⟩)⟩
  case rLen =>
    by_cases hb : Config.lenMin ≤ b.toNat
    · exact ⟨_, (receiveLength_eq_next b s _).mpr (.inl ⟨hb, rfl⟩)⟩
    · exact ⟨_, (receiveLength_eq_next b s _).mpr (.inr ⟨Nat.not_le.mp hb, rfl⟩)⟩
  case rPay =>
    exact ⟨_, (receivePayload_eq_next b s _).mpr ⟨cnt_lt_bufSize hs (by rw [hf]; rfl), rfl⟩⟩
  case rCsum => exact receiveChecksum_answers b hs hf
  case idle | cSend | dead => exact ⟨s, rfl⟩

theorem sendByte_answers {s : State} (hs : Inv s) (hf : s.fsm = .cSend) :
    ∃ t, sendByte s = .next t := by
  have hx := hs.frame
  simp only [FrameInProgress, hf] at hx
  obtain ⟨hlt, hop⟩ := hx
  have hlen := s.txLen.isLt
  obtain ⟨b, hb⟩ := Option.isSome_iff_exists.mp (Memory.isSome_read_of_readBytes hs.buffers.tVisible hlt)
  have hroom : s.txIdx.toNat < Config.bufSize := by rw [Config.bufSize]; omega
  simp only [sendByte_eq_next]
  by_cases hi : s.txIdx.toNat + 1 < s.txLen.toNat
  · exact ⟨_, hroom, b, hb, .inl ⟨hi, rfl⟩⟩
  have hi : s.txIdx.toNat + 1 = s.txLen.toNat := by omega
  obtain ⟨hop, -⟩ | ⟨hop, -⟩ := hop
  · exact ⟨_, hroom, b, hb, .inr ⟨hi, (sendFinished_eq_next _ _).mpr (.inl ⟨hop, rfl⟩)⟩⟩
  · exact ⟨_, hroom, b, hb, .inr ⟨hi, (sendFinished_eq_next _ _).mpr (.inr ⟨hop, rfl⟩)⟩⟩

theorem takeEvent_answers {s : State} (hs : Inv s) (e : Event) : ∃ t, takeEvent e s = .next t := by
  by_cases hen : enabled e s.fsm = false
  · exact ⟨s, takeEvent_not_enabled hen⟩
  rw [Bool.not_eq_false] at hen
  cases e with
  | reset | cancel => exact ⟨_, rfl⟩
  | hostReq r =>
    obtain hf | hf := (busy_eq_false_iff s.fsm).mp (by simpa [enabled] using hen)
    · obtain ⟨t, ht, -⟩ := exec_request_idle r hf
      exact ⟨t, ht⟩
    · exact ⟨_, exec_host_dead (encode_decodeHost r) hf⟩
  | rxByte b =>
    obtain ⟨t, ht⟩ := receiveStep_answers b (s := consume b s) hs.frame
    exact ⟨t, (takeRxByte_eq_next b s t).mpr (.inl ⟨hen, ht⟩)⟩
  | rxTimeout => exact ⟨_, (takeRxTimeout_eq_next s _).mpr (.inl ⟨hen, rfl⟩)⟩
  | txAccept =>
    have hf : s.fsm = .cSend := of_decide_eq_true hen
    obtain ⟨t, ht⟩ := sendByte_answers hs hf
    exact ⟨t, (takeTxAccept_eq_next s t).mpr (.inl ⟨hf, ht⟩)⟩
  | txFail => exact ⟨_, (takeTxFail_eq_next s _).mpr (.inl ⟨of_decide_eq_true hen, rfl⟩)⟩

/-- The invariant does not read the edges to come. -/
theorem inv_with_edges {s : State} (hs : Inv s) (rest : List Pins) : Inv { s with inputs := rest } := by
  obtain ⟨⟨hxw, htw, hxv, htv⟩, ⟨hidx, hreq⟩, hresp, ⟨hec, heb, hed⟩, ⟨hs3, hs1, hver, htlm⟩, hframe⟩ := hs
  refine ⟨⟨hxw, htw, hxv, htv⟩, ⟨hidx, hreq⟩, fun hv => ?_, ⟨hec, heb, hed⟩, ⟨hs3, hs1, hver, htlm⟩, hframe⟩
  obtain ⟨hwhere, hwhole, hfr⟩ := hresp hv
  exact ⟨hwhere, hwhole, hfr⟩

/-- A step in a state of the invariant changes nothing but the edges to come, or takes one event
(R190). -/
theorem step_cases {s : State} (hs : Inv s) :
    (∃ rest, step s = .next { s with inputs := rest }) ∨
    (∃ e rest, step s = takeEvent e { s with inputs := rest }) := by
  obtain ⟨hnone, hedge⟩ := stepTakesTheEventOfTheEdge s hs
  cases hin : s.inputs with
  | nil => exact .inl ⟨s.inputs, hnone hin⟩
  | cons p rest =>
    obtain ⟨hevent, hquiet⟩ := hedge p rest hin
    cases he : portEvent p s.fsm with
    | none => exact .inl ⟨rest, hquiet he⟩
    | some e => exact .inr ⟨e, rest, hevent e he⟩

/-- Settles O17. -/
theorem stepNeverStops : Obligations.StepNeverStops := by
  intro s hs
  obtain ⟨rest, h⟩ | ⟨e, rest, h⟩ := step_cases hs
  · exact ⟨_, h⟩
  · rw [h]
    exact takeEvent_answers (inv_with_edges hs rest) e

end Sys2Proof.Machine

/-! PROOF. The invariant is kept, clause by clause: the transmit buffer and the frame in it, the frame
in progress, the response held, the error registers, the result registers (10_state.md rules R13, R18
to R22). -/

namespace Sys2Proof.Machine

open Sys2Proof.Safety

/-! ## The transmit buffer -/

theorem length_requestedFrame {r : HostReq} {f : List Byte} (hw : requestWellFormed r)
    (hr : requestedFrame r = some f) : 4 ≤ f.length ∧ f.length ≤ Config.bufSize := by
  obtain ⟨id, params, -, hp, rfl⟩ := requestedFrame_eq_some hw hr
  rw [length_buildCommand]
  simp only [Config.pMax, Config.bufSize] at hp ⊢
  omega

/-- What the invariant says of `t`: its form, its visible bytes, the frame in it. -/
def TransmitHeld (s : State) : Prop := s.t.wf ∧ s.visibleT.isSome = true ∧ RequestHeld s

/-- A frame held stays held while `tx_idx` moves within it. -/
theorem TransmitHeld.of_same {s t : State} (hs : TransmitHeld s) (ht : t.t = s.t)
    (hlen : t.txLen = s.txLen) (hidx : t.txIdx.toNat ≤ s.txLen.toNat) : TransmitHeld t := by
  obtain ⟨hwf, hvis, -, hframe⟩ := hs
  have hv : t.visibleT = s.visibleT := by rw [State.visibleT, State.visibleT, ht, hlen]
  exact ⟨ht ▸ hwf, hv ▸ hvis, ⟨hlen ▸ hidx, by rw [hlen, hv]; exact hframe⟩⟩

/-- The acceptance of a request with a frame puts that frame into `t` (R18). -/
theorem Accepted.transmitHeld_frame {r : HostReq} {s t : State} {f : List Byte} (h : Accepted r s t)
    (hw : requestWellFormed r) (hr : requestedFrame r = some f) (hwf : s.t.wf) : TransmitHeld t := by
  obtain ⟨-, hl⟩ := length_requestedFrame hw hr
  obtain ⟨ht, hlen, hidx⟩ := h.loads hr
  have hv : t.visibleT = some f := by
    have hload := visibleT_loadFrame f s hl
    rwa [State.visibleT, loadFrame_t, loadFrame_txLen, ← ht, ← hlen] at hload
  obtain ⟨id, params, hid, hp, rfl⟩ := requestedFrame_eq_some hw hr
  refine ⟨?_, by rw [hv]; rfl, ⟨by rw [hidx]; exact Nat.zero_le _, .inr ⟨id, params, hid, hp, hv⟩⟩⟩
  rw [ht]
  exact Memory.wf_writeBytes _ _ _ hwf (by omega)

theorem Transition.transmitHeld {e : Event} {s t : State} (h : Transition s e t)
    (hs : TransmitHeld s) : TransmitHeld t := by
  have hindex := hs.2.2.index
  have hlt := s.txLen.isLt
  obtain ⟨-, rfl⟩ | ⟨r, -, -, hw, hacc⟩ | ⟨-, -, -, ht, hlen, hidx⟩ := h.request_cases
  · exact ⟨Memory.wf_nil, rfl, ⟨Nat.le_refl _, .inl rfl⟩⟩
  · cases hr : requestedFrame r with
    | some f => exact hacc.transmitHeld_frame hw hr hs.1
    | none =>
      obtain ⟨ht, hlen, hidx⟩ := hacc.loads_nothing hr
      exact hs.of_same ht hlen (hidx ▸ hindex)
  · refine hs.of_same ht hlen ?_
    obtain hidx | ⟨-, hi, hidx⟩ := hidx <;> rw [hidx]
    · exact hindex
    · rw [BitVec.toNat_add, BitVec.toNat_ofNat]; omega

/-! ## The frame in progress -/

theorem checksum_append (as bs : List Byte) : checksum (as ++ bs) = checksum as + checksum bs := by
  induction as with
  | nil => simp [checksum]
  | cons a as ih => simp [checksum, ih, BitVec.add_assoc]

/-- The running checksum of the bytes received takes in the next byte by one addition (R92). -/
theorem checksum_snoc (f : List Byte) (b : Byte) : checksum (f ++ [b]) = checksum f + b := by
  simp [checksum_append, checksum]

theorem Received.frameInProgress {b : Byte} {s t : State} (h : Received b s t)
    (hs : FrameInProgress s) : FrameInProgress t := by
  have hlen := s.len.isLt
  cases h with
  | firstHeader hf hb =>
    simp only [FrameInProgress, hf] at hs
    obtain ⟨hop, hc⟩ := hs
    exact ⟨hop, rfl, hb ▸ visibleX_store s _ [] b (visibleX_zero s hc) (by simp [hc]) (by simp [hc])⟩
  | skipped hf =>
    simp only [FrameInProgress, hf] at hs
    exact hs
  | secondHeader hf hb =>
    simp only [FrameInProgress, hf] at hs
    obtain ⟨hop, hc, hv⟩ := hs
    exact ⟨hop, by simp, by simp, _, visibleX_store s _ _ b hv (by simp [hc]) (by simp [hc]),
      by simp [hb], by subst hb; rfl⟩
  | halfHeader hf =>
    simp only [FrameInProgress, hf] at hs
    exact ⟨hs.1, rfl⟩
  | body hf hc =>
    simp only [FrameInProgress, hf] at hs
    obtain ⟨hop, h2, -, f, hv, hdr, hacc⟩ := hs
    have hl := length_of_visibleX hv
    have hc1 : (s.cnt + 1#8).toNat = s.cnt.toNat + 1 := by simp; omega
    refine ⟨hop, by simp only; omega, by simp only; omega, _, visibleX_store s _ _ b hv rfl hc1, ?_, ?_⟩
    · rw [List.take_append_of_le_length (by omega), hdr]
    · rw [checksum_snoc, ← hacc]
  | telemetry d st r ok hf =>
    simp only [FrameInProgress, hf] at hs
    exact ⟨hs.1, rfl⟩
  | header hf hb =>
    simp only [FrameInProgress, hf] at hs
    obtain ⟨hop, hc⟩ := hs
    exact ⟨hop, rfl, hb ▸ visibleX_store s _ [] b (visibleX_zero s hc) (by simp [hc]) (by simp [hc]), rfl⟩
  | length hf hb =>
    simp only [FrameInProgress, hf] at hs
    obtain ⟨hop, hc, hv, hacc⟩ := hs
    refine ⟨hop, by simp, by simp only [Config.lenMin] at hb; simpa using hb, _,
      visibleX_store s _ _ b hv (by simp [hc]) (by simp [hc]), rfl, ?_⟩
    rw [checksum_snoc, hacc]
    rfl
  | payload hf =>
    simp only [FrameInProgress, hf] at hs
    obtain ⟨hop, h2, hle, f, hv, hdr, hacc⟩ := hs
    have hl := length_of_visibleX hv
    have hc1 : (s.cnt + 1#8).toNat = s.cnt.toNat + 1 := by simp; omega
    have hdr' : (f ++ [b]).take 2 = [Config.cmdHdr, s.len] := by
      rw [List.take_append_of_le_length (by omega), hdr]
    have hacc' : s.acc + b = checksum (f ++ [b]) := by rw [checksum_snoc, ← hacc]
    have hv' := visibleX_store s
      { s with x := s.x.write s.cnt.toNat b, cnt := s.cnt + 1#8 } f b hv rfl hc1
    split
    · next hlast => exact ⟨hop, by simp only; omega, by simp only; omega, _, hv', hdr', hacc'⟩
    · next hmore => exact ⟨hop, by simp only; omega, by simp only; omega, _, hv', hdr', hacc'⟩
  | rejected e hf he => obtain rfl | rfl := he <;> exact .inl rfl
  | badHeader | badLength | uncorrelated | noVersion => exact .inl rfl
  | recvDone | freqDone | verDone => exact .inr rfl

theorem Accepted.frameInProgress {r : HostReq} {s t : State} (h : Accepted r s t)
    (hf : s.fsm = .idle) (hw : requestWellFormed r) (hs : FrameInProgress s) : FrameInProgress t := by
  have hnonempty {f : List Byte} (hr : requestedFrame r = some f) : t.txIdx.toNat < t.txLen.toNat := by
    obtain ⟨hmin, hmax⟩ := length_requestedFrame hw hr
    obtain ⟨-, hlen, hidx⟩ := h.loads hr
    rw [hlen, hidx]
    simp only [Config.bufSize] at hmax
    simp
    omega
  simp only [FrameInProgress, hf] at hs
  cases h with
  | tlm => exact ⟨rfl, rfl⟩
  | build => simp only [FrameInProgress, hf, emit_fsm, loadFrame_fsm, acceptOp_fsm]; exact hs
  | send _ hr => exact ⟨hnonempty hr, .inl ⟨rfl, hs⟩⟩
  | recv => exact ⟨.inl rfl, rfl⟩
  | setfreq _ hr => exact ⟨hnonempty hr, .inr ⟨.inl rfl, rfl⟩⟩
  | getver _ hr => exact ⟨hnonempty hr, .inr ⟨.inr rfl, rfl⟩⟩

/-- The clause on the frame in progress reads these registers only. -/
theorem frameInProgress_of_idle {s t : State} (hf : s.fsm = .idle) (hs : FrameInProgress s)
    (htf : t.fsm = .idle) (hc : t.cnt = s.cnt) (hv : t.respValid = s.respValid) :
    FrameInProgress t := by
  simp only [FrameInProgress, hf] at hs
  simp only [FrameInProgress, htf, hc, hv]
  exact hs

theorem Transition.frameInProgress {e : Event} {s t : State} (h : Transition s e t)
    (hs : FrameInProgress s) : FrameInProgress t := by
  have hlt := s.txLen.isLt
  cases h with
  | reset | cancelled => exact .inl rfl
  | ignored => exact hs
  | refusedDead r hf =>
    simp only [FrameInProgress, hf] at hs
    simp only [FrameInProgress, refuseRequest_fsm, hf]
    exact hs
  | refused r hf => exact frameInProgress_of_idle hf hs hf rfl rfl
  | accepted hf hw h => exact h.frameInProgress hf hw hs
  | received _ h => exact h.frameInProgress hs
  | timedOut => exact .inl rfl
  | sentByte b hf hi =>
    simp only [FrameInProgress, hf] at hs
    exact ⟨by simp; omega, hs.2⟩
  | sentFrame b hf hi hop =>
    simp only [FrameInProgress, hf] at hs
    obtain ⟨-, ⟨-, hc⟩ | ⟨hop', -⟩⟩ := hs
    · exact hc
    · simp [hop] at hop'
  | sentRequest b hf hi hop =>
    simp only [FrameInProgress, hf] at hs
    obtain ⟨-, ⟨hop', -⟩ | ⟨-, hc⟩⟩ := hs
    · simp [hop'] at hop
    · exact ⟨.inr hop, hc⟩
  | sendFailed => exact rfl

/-! ## The response held -/

/-- The parser accepts the bytes that the receiver accepts: a header, a length byte that counts them
all, an id and a checksum byte of a good verdict (R140, R144). -/
theorem parseFrame_of_good {f : List Byte} {l id b : Byte} (hdr : f.take 2 = [Config.cmdHdr, l])
    (hmin : 4 ≤ l.toNat) (hlen : f.length + 1 = l.toNat) (hid : f[2]? = some id)
    (hv : frameVerdict id (checksum f) b = .good) :
    parseFrame (f ++ [b]) = .ok (id, ((f ++ [b]).drop 3).take (l.toNat - 4)) := by
  obtain ⟨hknown, hsum⟩ := frameVerdict_eq_good.mp hv
  obtain ⟨rest, rfl⟩ : ∃ rest, f = Config.cmdHdr :: l :: rest :=
    ⟨f.drop 2, by rw [← List.take_append_drop 2 f, hdr]; simp⟩
  have hl : l.toNat - 1 = (Config.cmdHdr :: l :: rest).length := by omega
  have h2 : ((Config.cmdHdr :: l :: rest) ++ [b]).getD 2 0#8 = id := by
    rw [List.getD_eq_getElem?_getD, List.getElem?_append_left (by omega), hid, Option.getD_some]
  have hlast : ((Config.cmdHdr :: l :: rest) ++ [b]).getD (l.toNat - 1) 0#8 = b := by
    rw [hl, List.getD_eq_getElem?_getD, List.getElem?_concat_length, Option.getD_some]
  have htake : ((Config.cmdHdr :: l :: rest) ++ [b]).take (l.toNat - 1) = Config.cmdHdr :: l :: rest := by
    rw [hl, List.take_left]
  have hall : ¬ ((Config.cmdHdr :: l :: rest) ++ [b]).length < l.toNat := by
    rw [List.length_append, List.length_singleton]; omega
  have hmin' : ¬ l.toNat < Config.lenMin := by rw [Config.lenMin]; omega
  rw [List.cons_append, List.cons_append] at *
  simp only [parseFrame, h2, hlast, htake, hall, hmin', hsum, Option.isNone_iff_eq_none, ne_eq,
    not_true_eq_false, if_false, Option.isSome_iff_ne_none.mp hknown]

/-- A response validated at its last byte is held in `x[0..len-1]` (R20, R141). -/
theorem responseHeld_recordResponse {s : State} {id b : Byte} (hs : FrameInProgress s)
    (hf : s.fsm = .rCsum) (hid : s.x.read 2 = some id) (hv : frameVerdict id s.acc b = .good) :
    ResponseHeld (recordResponse id { s with x := s.x.write s.cnt.toNat b, cnt := s.len }) := by
  simp only [FrameInProgress, hf] at hs
  obtain ⟨-, hmin, hc, f, hvis, hdr, hacc⟩ := hs
  have hl := length_of_visibleX hvis
  have hrl : (s.len - 4#8).toNat = s.len.toNat - 4 := BitVec.toNat_sub_of_le hmin
  rw [read_eq_of_visibleX hvis (by omega)] at hid
  refine ⟨.inl rfl, rfl, f ++ [b], _, visibleX_store s _ f b hvis rfl hc.symm,
    parseFrame_of_good hdr hmin (by omega) hid (hacc ▸ hv), ?_, ?_⟩
  · simp [hrl, hl]; omega
  · simp [hrl, hl]; omega

/-- A response held stays held while `x`, `cnt`, `len` and its registers do. -/
theorem responseHeld_of_same {s t : State} (h : ResponseHeld s)
    (hwhere : t.fsm = .idle ∨ (t.fsm = .cSend ∧ t.op = .send)) (hx : t.x = s.x) (hc : t.cnt = s.cnt)
    (hlen : t.len = s.len) (hid : t.respId = s.respId) (hrl : t.respLen = s.respLen) :
    ResponseHeld t := by
  obtain ⟨-, hwhole, hframe⟩ := h
  have hv : t.visibleX = s.visibleX := by rw [State.visibleX, State.visibleX, hx, hc]
  exact ⟨hwhere, by rw [hc, hlen, hwhole], by rw [hv, hid, hrl]; exact hframe⟩

/-- No response is held while a byte is waited for. -/
theorem not_respValid_of_receiving {s : State} (hs : s.respValid = true → ResponseHeld s)
    (hrx : s.fsm.receiving = true) : ¬ s.respValid = true := fun hv => by
  obtain hf | ⟨hf, -⟩ := (hs hv).where_ <;> simp [hf, Fsm.receiving] at hrx

theorem Received.responseHeld {b : Byte} {s t : State} (h : Received b s t)
    (hs : FrameInProgress s) (hno : ¬ s.respValid = true) (hv : t.respValid = true) :
    ResponseHeld t := by
  cases h with
  | recvDone id data hf _ hid hgood | freqDone id hf _ hid hgood | verDone id p m j hf _ hid hgood =>
    exact responseHeld_of_same (responseHeld_recordResponse hs hf hid hgood) (.inl rfl) rfl rfl rfl rfl rfl
  | badHeader | badLength | rejected | uncorrelated | noVersion => cases hv
  | firstHeader | skipped | secondHeader | halfHeader | body | telemetry | header | length | payload =>
    exact absurd hv hno

theorem Accepted.responseHeld {r : HostReq} {s t : State} (h : Accepted r s t) (hf : s.fsm = .idle)
    (hs : s.respValid = true → ResponseHeld s) (hv : t.respValid = true) : ResponseHeld t := by
  cases h with
  | tlm | recv | setfreq | getver => cases hv
  | build => exact responseHeld_of_same (hs hv) (.inl hf) rfl rfl rfl rfl rfl
  | send => exact responseHeld_of_same (hs hv) (.inr ⟨rfl, rfl⟩) rfl rfl rfl rfl rfl

theorem Transition.responseHeld {e : Event} {s t : State} (h : Transition s e t)
    (hx : FrameInProgress s) (hs : s.respValid = true → ResponseHeld s) (hv : t.respValid = true) :
    ResponseHeld t := by
  cases h with
  | reset | cancelled | timedOut | sendFailed => cases hv
  | ignored => exact hs hv
  | refusedDead r hf => obtain hi | ⟨hi, -⟩ := (hs hv).where_ <;> cases hf.symm.trans hi
  | refused r hf => exact responseHeld_of_same (hs hv) (.inl hf) rfl rfl rfl rfl rfl
  | accepted hf _ h => exact h.responseHeld hf hs hv
  | received hrx h =>
    have hno := not_respValid_of_receiving hs hrx
    exact h.responseHeld hx hno hv
  | sentByte b hf =>
    obtain hi | ⟨-, hop⟩ := (hs hv).where_
    · cases hf.symm.trans hi
    · exact responseHeld_of_same (hs hv) (.inr ⟨rfl, hop⟩) rfl rfl rfl rfl rfl
  | sentFrame => exact responseHeld_of_same (hs hv) (.inl rfl) rfl rfl rfl rfl rfl
  | sentRequest b hf _ hop =>
    obtain hi | ⟨-, hop'⟩ := (hs hv).where_
    · cases hf.symm.trans hi
    · simp [hop'] at hop

/-! ## The receive buffer -/

/-- The visible bytes of `x` hold values: none is visible, or they are the frame in progress or the
response held (R28). -/
theorem visibleX_of_frame {s : State} (hs : FrameInProgress s)
    (hresp : s.respValid = true → ResponseHeld s) : s.visibleX.isSome = true := by
  have hempty (hc : s.cnt = 0#8) : s.visibleX.isSome = true := by rw [visibleX_zero s hc]; rfl
  have hheld (hv : s.respValid = true) : s.visibleX.isSome = true := by
    obtain ⟨f, data, hvis, -⟩ := (hresp hv).frame
    rw [hvis]; rfl
  cases hf : s.fsm <;> simp only [FrameInProgress, hf] at hs
  case idle => exact hs.elim hempty hheld
  case tSeek0 | rHdr => exact hempty hs.2
  case dead => exact hempty hs
  case cSend =>
    obtain ⟨-, ⟨-, hc⟩ | ⟨-, hc⟩⟩ := hs
    · exact hc.elim hempty hheld
    · exact hempty hc
  case tSeek1 => obtain ⟨-, -, hv⟩ := hs; rw [hv]; rfl
  case rLen => obtain ⟨-, -, hv, -⟩ := hs; rw [hv]; rfl
  case tRead | rPay | rCsum => obtain ⟨-, -, -, f, hv, -⟩ := hs; rw [hv]; rfl

theorem Transition.x_wf {e : Event} {s t : State} (h : Transition s e t) (hs : FrameInProgress s)
    (hwf : s.x.wf) : t.x.wf := by
  cases h with
  | reset => exact Memory.wf_nil
  | @received b t hrx h =>
    obtain hx | hx := h.x_eq hs <;> rw [hx]
    · exact hwf
    · exact Memory.wf_write _ _ _ hwf (cnt_lt_bufSize hs hrx)
  | accepted _ _ h => exact h.x_eq ▸ hwf
  | cancelled | ignored | refusedDead | refused | timedOut | sentByte | sentFrame | sentRequest
    | sendFailed => exact hwf

/-! ## The error registers -/

/-- A hard error is recorded consistently with where it leads (R22, R180). -/
theorem errorsHold_raiseError {e : ErrCode} {k : Bool} (hk : k = true → e = .unknownCommand)
    (s : State) : ErrorsHold (raiseError e k s) where
  corr := hk
  busy := fun hb => by cases e <;> simp [afterError, Fsm.busy] at hb
  dead := fun hd => by cases e <;> simp_all [afterError]

/-- An operation that goes on, or ends without an error, keeps the error registers. -/
theorem errorsHold_of_running {s t : State} (hs : ErrorsHold s) (hb : s.fsm.busy = true)
    (herr : t.err = s.err) (hcorr : t.errCorr = s.errCorr) (hd : t.fsm ≠ .dead) : ErrorsHold t where
  corr := fun hk => herr ▸ hs.corr (hcorr ▸ hk)
  busy := fun _ => herr ▸ hs.busy hb
  dead := fun h => absurd h hd

theorem errorsHold_of_clear {t : State} (herr : t.err = .none) (hcorr : t.errCorr = false)
    (hd : t.fsm ≠ .dead) : ErrorsHold t where
  corr := fun hk => by simp [hcorr] at hk
  busy := fun _ => herr
  dead := fun h => absurd h hd

/-- No received byte ends the session. -/
theorem Received.fsm_ne_dead {b : Byte} {s t : State} (h : Received b s t) : t.fsm ≠ .dead := by
  cases h
  case payload hf => simp only; split <;> simp
  case rejected e hf he => obtain rfl | rfl := he <;> simp [afterError]
  all_goals simp [afterError, reportTelemetry, recordResponse]

theorem Accepted.fsm_ne_dead {r : HostReq} {s t : State} (h : Accepted r s t) (hf : s.fsm = .idle) :
    t.fsm ≠ .dead := by
  cases h <;> simp [hf]

theorem Transition.errorsHold {e : Event} {s t : State} (h : Transition s e t) (hs : ErrorsHold s) :
    ErrorsHold t := by
  cases h with
  | reset => exact errorsHold_of_clear rfl rfl (by simp [State.reset])
  | cancelled hb => exact errorsHold_of_running hs hb rfl rfl (by simp)
  | ignored => exact hs
  | refusedDead r hf =>
    exact ⟨fun hk => (by cases hk), fun hb => (by simp [hf, Fsm.busy] at hb), fun _ => rfl⟩
  | refused r hf =>
    exact ⟨fun hk => (by cases hk), fun hb => (by simp [hf, Fsm.busy] at hb),
      fun hd => (by simp [hf] at hd)⟩
  | accepted hf _ h =>
    obtain ⟨herr, hcorr⟩ := h.clears_errors
    exact errorsHold_of_clear herr hcorr (h.fsm_ne_dead hf)
  | received hrx h =>
    obtain ⟨c, k, x, n, rfl, hk⟩ | ⟨herr, hcorr, -⟩ := h.raises_or_keeps
    · exact errorsHold_raiseError (fun hk' => (hk hk').1) _
    · exact errorsHold_of_running hs (busy_of_receiving hrx) herr hcorr h.fsm_ne_dead
  | timedOut | sendFailed => exact errorsHold_raiseError (fun hk => by cases hk) s
  | sentByte b hf | sentFrame b hf | sentRequest b hf =>
    exact errorsHold_of_running hs (by rw [hf]; rfl) rfl rfl (by simp)

/-! ## The result registers -/

/-- While no operation runs, only the acceptance of a request starts one. -/
theorem Transition.fsm_of_not_busy {e : Event} {s t : State} (h : Transition s e t)
    (hb : s.fsm.busy = false) (hno : ∀ r, e = .hostReq r → s.fsm = .idle → ¬ requestWellFormed r) :
    t.fsm.busy = false := by
  cases h with
  | reset => rfl
  | cancelled hf => exact absurd hf (by simp [hb])
  | ignored | refusedDead | refused => exact hb
  | accepted hf hw => exact absurd hw (hno _ rfl hf)
  | received hrx | timedOut hrx => exact absurd (busy_of_receiving hrx) (by simp [hb])
  | sentByte b hf | sentFrame b hf | sentRequest b hf | sendFailed hf => simp [hf, Fsm.busy] at hb

/-- The id to correlate with is that of the request in progress (R17). -/
theorem Transition.reqId_of_op {e : Event} {s t : State} (h : Transition s e t) (hs : ResultsHold s) :
    (t.op = .setfreq → t.reqId = 0x03#8) ∧ (t.op = .getver → t.reqId = 0x01#8) := by
  obtain ⟨-, rfl⟩ | ⟨r, -, -, -, hacc⟩ | ⟨-, hop, hid, -⟩ := h.request_cases
  · exact ⟨fun hop => (by cases hop), fun hop => (by cases hop)⟩
  · obtain ⟨hsel, hid⟩ := hacc.request_registers
    rw [hid, ← hsel]
    exact ⟨fun hop => by simp [hop, opNumber], fun hop => by simp [hop, opNumber]⟩
  · rw [hop, hid]
    exact ⟨hs.setfreqId, hs.getverId⟩

/-- No version is held while one is being fetched (R21). -/
theorem Transition.no_version {e : Event} {s t : State} (h : Transition s e t) (hs : ResultsHold s)
    (hop : t.op = .getver) (hb : t.fsm.busy = true) : t.verValid = false := by
  obtain ⟨-, rfl⟩ | ⟨r, rfl, hf, -, hacc⟩ | ⟨hno, hop', -⟩ := h.request_cases
  · cases hop
  · obtain ⟨hsel, -⟩ := hacc.request_registers
    obtain ⟨-, h5, -⟩ := hacc.version_registers
    exact h5 (by rw [← hsel, hop]; rfl)
  · have hsb : s.fsm.busy = true := by
      by_contra hsb
      rw [h.fsm_of_not_busy (by simpa using hsb) hno] at hb
      cases hb
    have hne : e ≠ .reset := by
      rintro rfl
      cases h with
      | reset => cases hop
      | ignored _ hen => simp [enabled] at hen
    obtain ⟨-, -, hv⟩ | ⟨-, -, hv⟩ | ⟨-, hc, -, ⟨b, rfl⟩, -⟩ := h.version_cases hne
    · exact hv
    · rw [hv]
      exact hs.version (hop' ▸ hop) hsb
    · rw [h.fsm_eq] at hb
      simp [tableFsm, hc, Fsm.busy] at hb

theorem Transition.resultsHold {e : Event} {s t : State} (h : Transition s e t) (hs : ResultsHold s) :
    ResultsHold t := by
  obtain ⟨h3, h1⟩ := h.reqId_of_op hs
  refine ⟨h3, h1, h.no_version hs, fun hv => ?_⟩
  by_cases hne : e = .reset
  · subst hne
    cases h with
    | reset => exact ⟨rfl, rfl, rfl, rfl⟩
    | ignored => exact hs.telemetry hv
  · obtain ⟨hd, hst, hr, hok, hvalid⟩ | ⟨-, -, hvalid, -⟩ := h.telemetry_registers hne
    · rw [hd, hst, hr, hok]
      exact hs.telemetry (hvalid ▸ hv)
    · rw [hvalid] at hv
      cases hv

/-! ## Every step -/

/-- Every event keeps the invariant. -/
theorem Transition.inv {e : Event} {s t : State} (h : Transition s e t) (hs : Inv s) : Inv t := by
  obtain ⟨htwf, htvis, hreq⟩ := h.transmitHeld ⟨hs.buffers.tForm, hs.buffers.tVisible, hs.request⟩
  have hframe := h.frameInProgress hs.frame
  have hresp := h.responseHeld hs.frame hs.response
  exact {
    buffers := ⟨h.x_wf hs.frame hs.buffers.xForm, htwf, visibleX_of_frame hframe hresp, htvis⟩
    request := hreq
    response := hresp
    errors := h.errorsHold hs.errors
    results := h.resultsHold hs.results
    frame := hframe }

/-- Settles O16: a step is no event or one event, and every event keeps the invariant. -/
theorem invariantKeptByEveryStep : Obligations.InvariantKeptByEveryStep := by
  intro s t hs h
  obtain ⟨rest, hstep⟩ | ⟨e, rest, hstep⟩ := step_cases hs
  · rw [hstep] at h
    cases h
    exact inv_with_edges hs rest
  · exact (transition_of_takeEvent (hstep.symm.trans h)).inv (inv_with_edges hs rest)

end Sys2Proof.Machine

/-! PROOF. What an event moves on the two streams (20_memory.md rules R45, R48, R49): at most one
byte of one stream, with at most one result event behind it. -/

namespace Sys2Proof.Machine

/-- From `s` to `t` the bytes `rx` are consumed, the bytes `tx` are sent, and at most one result event
is emitted after them. -/
def Moves (s t : State) (rx tx : List Byte) : Prop :=
  t.rxLog = s.rxLog ++ rx ∧ ∃ q : Option Result, t.out = s.out ++ (tx.map .tx ++ q.toList.map .res)

theorem moves_silent {s t : State} (hrx : t.rxLog = s.rxLog) (hout : t.out = s.out) :
    Moves s t [] [] :=
  ⟨by simp [hrx], none, by simp [hout]⟩

theorem moves_result {s t : State} (q : Result) (hrx : t.rxLog = s.rxLog)
    (hout : t.out = s.out ++ [.res q]) : Moves s t [] [] :=
  ⟨by simp [hrx], some q, by simp [hout]⟩

theorem Moves.txStream_eq {s t : State} {rx tx : List Byte} (h : Moves s t rx tx) :
    t.txStream = s.txStream ++ tx := by
  obtain ⟨-, q, hout⟩ := h
  simp [State.txStream, hout, List.filterMap_map]

theorem Moves.results_eq {s t : State} {rx tx : List Byte} (h : Moves s t rx tx) :
    t.results = s.results ∨ ∃ q, t.results = s.results ++ [q] := by
  obtain ⟨-, q, hout⟩ := h
  have hq : t.results = s.results ++ q.toList := by
    simp [State.results, hout, List.filterMap_map]
  cases q with
  | none => exact .inl (by simpa using hq)
  | some q => exact .inr ⟨q, hq⟩

theorem Moves.out_grows {s t : State} {rx tx : List Byte} (h : Moves s t rx tx)
    (htx : tx.length ≤ 1) : ∃ os, t.out = s.out ++ os ∧ os.length ≤ 2 := by
  obtain ⟨-, q, hout⟩ := h
  have hq : q.toList.length ≤ 1 := by cases q <;> simp
  exact ⟨_, hout, by simp only [List.length_append, List.length_map]; omega⟩

theorem Accepted.moves {r : HostReq} {s t : State} (h : Accepted r s t) : Moves s t [] [] := by
  cases h with
  | build => exact moves_result .buildDone rfl rfl
  | tlm | send | recv | setfreq | getver => exact moves_silent rfl rfl

/-- Once its byte is consumed, a step of a receiver moves nothing more. -/
theorem Received.moves {b : Byte} {s t : State} (h : Received b s t) : Moves s t [] [] := by
  cases h with
  | firstHeader | skipped | secondHeader | body | header | length | payload => exact moves_silent rfl rfl
  | halfHeader | telemetry | badHeader | badLength | rejected | uncorrelated | noVersion | recvDone
    | freqDone | verDone => exact moves_result _ rfl rfl

/-- An event moves a received byte, or a byte of `t`, or nothing on either stream. -/
theorem Transition.stream_cases {e : Event} {s t : State} (h : Transition s e t) :
    (∃ b, e = .rxByte b ∧ s.fsm.receiving = true ∧ Moves s t [b] []) ∨
    (∃ b, e = .txAccept ∧ s.fsm = .cSend ∧ s.t.read s.txIdx.toNat = some b ∧
      t.txIdx = s.txIdx + 1#8 ∧ Moves s t [] [b]) ∨
    ((∀ b, e = .rxByte b → s.fsm.receiving = false) ∧ (e = .txAccept → s.fsm ≠ .cSend) ∧
      Moves s t [] []) := by
  cases h with
  | @received b t hrx h =>
    obtain ⟨hlog, hout⟩ := h.moves
    exact .inl ⟨b, rfl, hrx, by simpa using hlog, hout⟩
  | sentByte b hf _ hb | sentRequest b hf _ _ hb =>
    exact .inr (.inl ⟨b, rfl, hf, hb, rfl, by simp, none, rfl⟩)
  | sentFrame b hf _ _ hb =>
    exact .inr (.inl ⟨b, rfl, hf, hb, rfl, by simp, some .sendDone, by simp⟩)
  | ignored e h =>
    refine .inr (.inr ⟨?_, ?_, moves_silent rfl rfl⟩)
    · rintro b rfl; simpa [enabled] using h
    · rintro rfl; simpa [enabled] using h
  | accepted _ _ h => exact .inr (.inr ⟨nofun, nofun, h.moves⟩)
  | reset | cancelled => exact .inr (.inr ⟨nofun, nofun, moves_silent rfl rfl⟩)
  | refusedDead | refused | timedOut | sendFailed =>
    exact .inr (.inr ⟨nofun, nofun, moves_result _ rfl rfl⟩)

/-- Settles O58, from the three ways an event can move bytes. -/
theorem streamsMoveOneByteAtATime : Obligations.StreamsMoveOneByteAtATime := by
  intro s t e h
  obtain ⟨b, rfl, hrx, hm⟩ | ⟨b, rfl, hf, hb, hi, hm⟩ | ⟨hrx, htx, hm⟩ :=
    (transition_of_takeEvent h).stream_cases
  · refine ⟨?_, ?_, nofun, fun _ => by simpa using hm.txStream_eq,
      hm.out_grows (by simp), hm.results_eq⟩
    · rintro _ ⟨⟩ -; exact hm.1
    · rintro (hne | hno)
      · exact absurd rfl (hne b)
      · simp [hrx] at hno
  · refine ⟨nofun, fun _ => by simpa using hm.1, fun _ _ => ⟨b, hb, hm.txStream_eq, hi⟩, ?_,
      hm.out_grows (by simp), hm.results_eq⟩
    rintro (hne | hne)
    · exact absurd rfl hne
    · exact absurd hf hne
  · refine ⟨fun b he hr => ?_, fun _ => by simpa using hm.1, fun he hf => absurd hf (htx he),
      fun _ => by simpa using hm.txStream_eq, hm.out_grows (by simp), hm.results_eq⟩
    simp [hrx b he] at hr

end Sys2Proof.Machine

/-! PROOF. The wire encoding (30_encoding.md rules R60 to R79): how 16-bit fields and command ids are
coded, what the decoder answers on an encoded frame, that a well-formed instruction comes back from
its encoding, and that decoded bytes start with the frame of their instruction. -/

namespace Sys2Proof.Machine

/-! ## Fields and command ids -/

theorem toNat_u16 (lo hi : Byte) : (u16 lo hi).toNat = lo.toNat + 256 * hi.toNat := by
  rw [u16, BitVec.toNat_append, Nat.shiftLeft_eq, mul_comm, ← Nat.two_pow_add_eq_or_of_lt lo.isLt]
  omega

theorem toNat_lowByte (v : Half) : (lowByte v).toNat = v.toNat % 256 := by
  rw [lowByte, BitVec.extractLsb'_toNat, Nat.shiftRight_zero]

theorem toNat_highByte (v : Half) : (highByte v).toNat = v.toNat / 256 := by
  rw [highByte, BitVec.extractLsb'_toNat, Nat.shiftRight_eq_div_pow]
  have := v.isLt
  omega

@[simp] theorem u16_lowByte_highByte (v : Half) : u16 (lowByte v) (highByte v) = v := by
  apply BitVec.eq_of_toNat_eq
  rw [toNat_u16, toNat_lowByte, toNat_highByte, Nat.mod_add_div]

theorem readBytes_two {m : Memory} {k : Nat} {lo hi : Byte} (hlo : m.read k = some lo)
    (hhi : m.read (k + 1) = some hi) : m.readBytes k 2 = some [lo, hi] :=
  (m.readBytes_succ_eq_some k 1 _).mpr
    ⟨lo, [hi], rfl, hlo, (m.readBytes_succ_eq_some (k + 1) 0 _).mpr ⟨hi, [], rfl, hhi, rfl⟩⟩

theorem cmdOfByte_cmdByte (c : CommandId) : cmdOfByte (cmdByte c) = some c :=
  (cmdOfByte_eq_some _ _).mpr rfl

theorem cmdOfByte_eq_none (b : Byte) :
    cmdOfByte b = none ↔ b ≠ 0x01#8 ∧ b ≠ 0x02#8 ∧ b ≠ 0x03#8 := by
  rw [cmdOfByte]
  split_ifs <;> simp_all

/-- Settles O5. -/
theorem commandIdsAreClosed : Obligations.CommandIdsAreClosed :=
  ⟨cmdOfByte_cmdByte .getVersion, cmdOfByte_cmdByte .softReset, cmdOfByte_cmdByte .sampleFreq,
    cmdOfByte_eq_none, cmdOfByte_cmdByte⟩

/-- Settles O6: each clause is the value of a field or of one of its two bytes. -/
theorem fieldAssembly : Obligations.FieldAssembly := by
  refine ⟨toNat_u16, fun lo hi => ⟨lowByte_u16 lo hi, highByte_u16 lo hi⟩, u16_lowByte_highByte,
    fun m k lo hi hlo hhi => ?_, fun freq => ?_⟩
  · rw [Memory.memRead, readBytes_two hlo hhi, toNat_u16]
    rfl
  · simp [freqParams, toNat_lowByte, toNat_highByte]

/-! ## Frames and requests: what the decoder answers on an encoding -/

/-- The eight codes of `op_sel` select the eight host rows (R76). -/
theorem decodeHost_of_opSel (r : HostReq) :
    (r.opSel = 0#3 → decodeHost r = .tlm) ∧
    (r.opSel = 1#3 → decodeHost r = .build r.cmd r.plen (r.params.toList.take r.plen.toNat)) ∧
    (r.opSel = 2#3 → decodeHost r = .send r.cmd r.plen (r.params.toList.take r.plen.toNat)) ∧
    (r.opSel = 3#3 → decodeHost r = .recv) ∧
    (r.opSel = 4#3 → decodeHost r = .setfreq r.freq) ∧
    (r.opSel = 5#3 → decodeHost r = .getver) ∧
    (r.opSel = 6#3 → decodeHost r = .reservedOp6) ∧
    (r.opSel = 7#3 → decodeHost r = .reservedOp7) := by
  refine ⟨?_, ?_, ?_, ?_, ?_, ?_, ?_, ?_⟩ <;> intro h <;> simp [decodeHost, h]

/-- Settles O3: the frames are evaluated, the host codes are the decoder's rows. -/
theorem specWordsDecode : Obligations.SpecWordsDecode := by
  refine ⟨?_, ?_, ?_, ?_, ?_, ?_, ?_, ?_, decodeHost_of_opSel⟩ <;> decide

/-- The lanes the port carries hold the parameters a request lists, if they fit (R77, R189). -/
theorem take_paramLanes {plen : Byte} {params : List Byte}
    (h : params.length = min plen.toNat Config.pMax) :
    (paramLanes params).toList.take plen.toNat = params := by
  rw [Config.pMax] at h
  have hlanes : (paramLanes params).toList = (params ++ List.replicate 251 0#8).take 251 := rfl
  rw [hlanes, List.take_take, ← h, List.take_left]

theorem toNat_requestLen {n : Nat} (h : n ≤ Config.pMax) : (requestLen n).toNat = n + 4 := by
  rw [Config.pMax] at h
  simp [requestLen, Config.lenOverhead]
  omega

theorem paramsFit_iff {params : List Byte} : paramsFit params = true ↔ params.length ≤ Config.pMax :=
  decide_eq_true_iff

theorem responseFramed_iff {len : Byte} {data : List Byte} :
    responseFramed len data = true ↔ Config.lenMin ≤ len.toNat ∧ data.length + 4 = len.toNat := by
  rw [responseFramed, Bool.and_eq_true, decide_eq_true_iff, decide_eq_true_iff, Config.lenOverhead]

theorem decode_encodeTelemetry (distance strength temp : Half) (csum : Byte) :
    decode (.rx (encodeTelemetry distance strength temp csum)) =
      .ok (.tlmFrame distance strength temp csum) := by
  simp [decode, encodeTelemetry, decodeTelemetry]

/-- A request frame reaches the table with its id, parameters and checksum byte (R62). -/
theorem decode_encodeRequest {params : List Byte} (id csum : Byte) (h : paramsFit params = true) :
    decode (.tx (encodeRequest id params csum)) = requestRow id params csum := by
  simp [decode, encodeRequest, decodeRequest, toNat_requestLen (paramsFit_iff.mp h), Config.lenMin]

/-- A response frame reaches the table with its length byte, id, data and checksum byte (R63). -/
theorem decode_encodeResponse {len : Byte} {data : List Byte} (id csum : Byte)
    (h : responseFramed len data = true) :
    decode (.rx (encodeResponse len id data csum)) = .ok (responseRow len id data csum) := by
  obtain ⟨-, hlen⟩ := responseFramed_iff.mp h
  have hhdr : Config.cmdHdr ≠ Config.tlmHdr := by decide
  simp [decode, encodeResponse, decodeResponse, hhdr, ← hlen]

/-- A general request that no more special row covers is a REQ_GENERIC (R65, R79). -/
theorem requestRow_generic {id : Byte} {params : List Byte} (csum : Byte)
    (h : genericRequest id params = true) :
    requestRow id params csum = .ok (.reqGeneric id params csum) := by
  rw [genericRequest, Bool.or_eq_true, Bool.and_eq_true, Bool.and_eq_true] at h
  obtain ⟨hid, hparams⟩ | ⟨hid, hparams⟩ := h <;> obtain rfl := of_decide_eq_true hid
  · cases params with
    | nil => cases hparams
    | cons b bs => rfl
  · match params, hparams with
    | [], _ | [_], _ | _ :: _ :: _ :: _, _ => rfl

/-- A response with an unknown id is a RSP_GENERIC (R65, R79). -/
theorem responseRow_generic {id : Byte} (len : Byte) (data : List Byte) (csum : Byte)
    (h : (cmdOfByte id).isNone = true) :
    responseRow len id data csum = .rspGeneric len id data csum := by
  rw [responseRow, Option.isNone_iff_eq_none.mp h]

/-- Settles O1: each constructor's encoding reaches its own row of the table, a general row only where
well-formedness rules the special ones out. -/
theorem decodeEncodeRoundTrip : Obligations.DecodeEncodeRoundTrip := by
  intro i hwf
  cases i with
  | tlmFrame distance strength temp csum => exact decode_encodeTelemetry distance strength temp csum
  | reqGetversion csum => exact decode_encodeRequest 0x01#8 csum rfl
  | reqSoftreset params csum => exact decode_encodeRequest 0x02#8 csum hwf
  | reqSamplefreq freq csum =>
    calc decode (encode (.reqSamplefreq freq csum))
        = requestRow 0x03#8 (freqParams freq) csum := decode_encodeRequest 0x03#8 csum rfl
      _ = .ok (.reqSamplefreq (u16 (lowByte freq) (highByte freq)) csum) := rfl
      _ = .ok (.reqSamplefreq freq csum) := by rw [u16_lowByte_highByte]
  | reqGeneric id params csum =>
    obtain ⟨hfit, hgeneric⟩ := Bool.and_eq_true_iff.mp hwf
    exact (decode_encodeRequest id csum hfit).trans (requestRow_generic csum hgeneric)
  | rspGetversion len data csum => exact decode_encodeResponse 0x01#8 csum hwf
  | rspSoftreset len data csum => exact decode_encodeResponse 0x02#8 csum hwf
  | rspSamplefreq len data csum => exact decode_encodeResponse 0x03#8 csum hwf
  | rspGeneric len id data csum =>
    obtain ⟨hframed, hunknown⟩ := Bool.and_eq_true_iff.mp hwf
    exact (decode_encodeResponse id csum hframed).trans
      (congrArg Except.ok (responseRow_generic len data csum hunknown))
  | build cmd plen params =>
    exact congrArg (fun ps => Except.ok (Instr.build cmd plen ps))
      (take_paramLanes (of_decide_eq_true hwf))
  | send cmd plen params =>
    exact congrArg (fun ps => Except.ok (Instr.send cmd plen ps))
      (take_paramLanes (of_decide_eq_true hwf))
  | tlm | recv | setfreq | getver | reservedOp6 | reservedOp7 => rfl

/-! ## Which row decoded bytes belong to -/

/-- The row of a response is well-formed exactly if its length byte counts the frame (R63). -/
theorem wellFormed_responseRow (len id : Byte) (data : List Byte) (csum : Byte) :
    (responseRow len id data csum).wellFormed = responseFramed len data := by
  rw [responseRow]
  cases h : cmdOfByte id with
  | none => simp [Instr.wellFormed, h]
  | some c => cases c <;> rfl

/-- Bytes that decode on format R decode to the row of a response with their second byte as its
length byte (R63). -/
theorem decodeResponse_eq_ok {bytes : List Byte} {i : Instr} (h : decodeResponse bytes = .ok i) :
    ∃ hdr len rest id data csum, bytes = hdr :: len :: rest ∧ i = responseRow len id data csum := by
  rw [decodeResponse.eq_def] at h
  split at h
  · next hdr len id rest =>
    split_ifs at h
    split at h <;> cases h
    exact ⟨hdr, len, _, id, _, _, rfl, rfl⟩
  · cases h

/-- Bytes that decode on format C decode to the row of a request whose parameters are no more than
the length byte counts, and so at most 251 (R62, R67). -/
theorem decodeRequest_eq_ok {bytes : List Byte} {i : Instr} (h : decodeRequest bytes = .ok i) :
    ∃ hdr len rest id params csum, bytes = hdr :: len :: rest ∧ paramsFit params = true ∧
      requestRow id params csum = .ok i := by
  rw [decodeRequest.eq_def] at h
  split at h
  · next hdr len id rest =>
    have hfit : (rest.take (len.toNat - 4)).length ≤ Config.pMax := by
      rw [List.length_take, Config.pMax]
      omega
    split_ifs at h
    split at h
    · cases h
    · exact ⟨hdr, len, _, id, _, _, rfl, paramsFit_iff.mpr hfit, h⟩
  · cases h

/-- A known request belongs to REQ_GENERIC only where no more special row covers it (R65, R79). -/
theorem wellFormed_of_requestRow {id : Byte} {params : List Byte} {csum : Byte} {i : Instr}
    (hfit : paramsFit params = true) (h : requestRow id params csum = .ok i) :
    i.wellFormed = true := by
  rw [requestRow.eq_def] at h
  split at h
  case h_1 | h_2 => cases h; rfl
  case h_3 => cases h; exact hfit
  case h_4 c hreset hid hversion hfreq =>
    cases h
    obtain rfl := (cmdOfByte_eq_some id c).mp hid
    refine Bool.and_eq_true_iff.mpr ⟨hfit, ?_⟩
    cases c with
    | getVersion => simpa [genericRequest, cmdByte] using hversion
    | softReset => exact (hreset rfl).elim
    | sampleFreq =>
      simp only [genericRequest, cmdByte, decide_true, Bool.true_and, Bool.or_eq_true,
        decide_eq_true_eq]
      refine .inr fun htwo => ?_
      obtain ⟨lo, hi, rfl⟩ := List.length_eq_two.mp htwo
      exact hfreq lo hi rfl rfl
  case h_5 => cases h

/-- Settles O2: what decodes on format T, R or C encodes back to as many of its bytes as the format or
the length byte counts; the bytes behind them are not looked at. -/
theorem decodedFrameEncodesBack : Obligations.DecodedFrameEncodesBack := by
  refine ⟨fun bytes i h hwf => ?_, fun bytes i h => ?_⟩
  · rw [decode] at h
    split at h
    · exact ⟨_, _, encode_of_decodeTelemetry h, (List.take_append_drop _ _).symm⟩
    · obtain ⟨hdr, len, rest, id, data, csum, rfl, rfl⟩ := decodeResponse_eq_ok h
      rw [wellFormed_responseRow] at hwf
      obtain ⟨hmin, -⟩ := responseFramed_iff.mp hwf
      exact ⟨_, _, encode_of_decodeResponse hmin h, (List.take_append_drop _ _).symm⟩
  · obtain ⟨hdr, len, rest, id, params, csum, rfl, hfit, hrow⟩ := decodeRequest_eq_ok h
    exact ⟨wellFormed_of_requestRow hfit hrow, _, _, encode_of_decodeRequest h,
      (List.take_append_drop _ _).symm⟩

end Sys2Proof.Machine

/-! PROOF. The laws of the checksum (40_primitives.md rule R91): every law after the first follows from
the sum of the bytes as natural numbers. -/

namespace Sys2Proof.Machine

/-- R91 (a). The carry dropped at every addition is the carry dropped once at the end. -/
theorem checksum_toNat (bs : List Byte) :
    (checksum bs).toNat = (bs.map BitVec.toNat).sum % 256 := by
  induction bs with
  | nil => rfl
  | cons b bs ih =>
    rw [checksum, BitVec.toNat_add, ih, List.map_cons, List.sum_cons, Nat.add_mod_mod]

/-- R91 (d). Changes that cancel modulo 256 are not detected. -/
theorem checksum_eq_of_sum_mod_eq {as bs : List Byte}
    (h : (as.map BitVec.toNat).sum % 256 = (bs.map BitVec.toNat).sum % 256) :
    checksum as = checksum bs :=
  BitVec.eq_of_toNat_eq (by rw [checksum_toNat, checksum_toNat, h])

/-- R91 (b). The order of the bytes does not matter, because it does not matter to their sum. -/
theorem checksum_eq_of_perm {as bs : List Byte} (h : as.Perm bs) : checksum as = checksum bs :=
  checksum_eq_of_sum_mod_eq (congrArg (· % 256) (h.map BitVec.toNat).sum_nat)

/-- Two bytes of a frame exchanged, wherever they stand, rearrange the frame. -/
theorem swapped_bytes_perm (u v w : List Byte) (a b : Byte) :
    (u ++ [a] ++ v ++ [b] ++ w).Perm (u ++ [b] ++ v ++ [a] ++ w) := by
  have ends : ([a] ++ (v ++ [b])).Perm ([b] ++ v ++ [a]) :=
    List.perm_append_comm.trans (List.perm_append_comm.append_right [a])
  simpa only [List.append_assoc] using (ends.append_right w).append_left u

/-- Settles O4: the sum of the bytes modulo 256 (R91 (a)) decides the checksum, and the laws (b) and
(d) are read off it; law (c) is the model's own addition over concatenation. -/
theorem checksumLaws : Obligations.ChecksumLaws := by
  refine ⟨checksum_toNat, fun _ _ => checksum_eq_of_perm, fun b => ?_, fun a b => ?_,
    fun u v w a b => ?_, fun _ _ => checksum_eq_of_sum_mod_eq⟩
  · exact checksum_eq_of_perm b.reverse_perm.symm
  · rw [checksum_append, BitVec.toNat_add]
  · exact checksum_eq_of_perm (swapped_bytes_perm u v w a b)

end Sys2Proof.Machine

/-! PROOF. The telemetry decoder (41_telemetry_decoder.md): one equation for what a received byte does
in each row of rules R101 to R106; from these what a run of bytes does: the body of a frame, a whole
frame, and garbage that holds no header pair (R111). -/

namespace Sys2Proof.Machine

open Sys2Proof.Safety

/-! ## The decoded temperature -/

/-- R107: the subtraction in 17 bits never leaves the range of a 17-bit two's-complement number. -/
theorem toInt_tempQ3 (raw : Half) : (tempQ3 raw).toInt = (raw.toNat : Int) - 2048 := by
  have hraw : (raw.setWidth 17).toInt = raw.toNat := by
    rw [BitVec.toInt_setWidth, Int.bmod_eq_of_le (by omega) (by omega)]
  have hoff : (BitVec.ofNat 17 (Config.tempOff * Config.tempDiv)).toInt = 2048 := by decide
  rw [tempQ3, BitVec.toInt_sub, hraw, hoff, Int.bmod_eq_of_le (by omega) (by omega)]

/-- Settles O7. -/
theorem temperatureIsExact : Obligations.TemperatureIsExact := by
  intro raw
  rw [toInt_tempQ3]
  omega

/-! ## Acceptance and timeout -/

/-- TLM starts by seeking a header (R100). -/
theorem exec_tlm_idle {s : State} (h : s.fsm = .idle) :
    exec .tlm s = .next { hideReceived (acceptOp .tlm s) with fsm := .tSeek0 } := by
  rw [exec, execTlm, onRequest_idle s _ h]

/-- RECV starts by waiting for a header byte (R135). -/
theorem exec_recv_idle {s : State} (h : s.fsm = .idle) :
    exec .recv s = .next { hideReceived (acceptOp .recv s) with fsm := .rHdr } := by
  rw [exec, execRecv, onRequest_idle s _ h]

/-- A byte taken in a telemetry state leads to a telemetry state: TLM runs on (R100). -/
theorem tableFsm_telemetry {s : State} (b : Byte) (h : s.fsm ∈ [Fsm.tSeek0, .tSeek1, .tRead]) :
    tableFsm s (.rxByte b) ∈ [Fsm.tSeek0, .tSeek1, .tRead] := by
  simp only [List.mem_cons, List.not_mem_nil, or_false] at h
  obtain h | h | h := h <;> simp only [tableFsm, h] <;> split <;> decide

/-- Settles O25: acceptance by what each request does in `IDLE`, the stay in the telemetry states by
the transition table. -/
theorem tlmAndRecvAccepted : Obligations.TlmAndRecvAccepted := by
  refine ⟨fun s hs => ⟨exec_tlm_idle hs, exec_recv_idle hs⟩, fun s t b hs h => ?_⟩
  rw [transitionTable s t _ h]
  exact tableFsm_telemetry b hs

/-- Settles O22. -/
theorem timeoutRaisesSerialTimeout : Obligations.TimeoutRaisesSerialTimeout :=
  fun s hs => if_pos ((receiving_iff_mem s.fsm).mpr hs)

/-! ## The receive buffer after a store -/

theorem holdsByte_write (m : Memory) (i : Nat) (b : Byte) : holdsByte (m.write i b) i b m :=
  fun a => m.read_write i a b

theorem holdsFrame_writeBytes (m : Memory) (f : List Byte) : holdsFrame (m.writeBytes 0 f) f m :=
  fun a => by simp [Memory.read_writeBytes]

/-- Bytes written read back whole from where they begin. -/
theorem Memory.readBytes_writeBytes_from (m : Memory) (start : Nat) (bs : List Byte) :
    (m.writeBytes start bs).readBytes start bs.length = some bs := by
  rw [Memory.readBytes_eq_some]
  refine ⟨rfl, fun k hk => ?_⟩
  rw [Memory.read_writeBytes, if_pos (by omega), Nat.add_sub_cancel_left]

/-! ## One byte -/

theorem takeRxByte_receiving {s : State} (b : Byte) (h : s.fsm.receiving = true) :
    takeRxByte b s = receiveStep b (consume b s) := if_pos h

theorem takeRxByte_tSeek0 {s : State} (b : Byte) (h : s.fsm = .tSeek0) :
    takeRxByte b s = seekFirst b (consume b s) := by
  rw [takeRxByte_receiving b (by rw [h]; rfl), receiveStep, consume_fsm, h]

theorem takeRxByte_tSeek1 {s : State} (b : Byte) (h : s.fsm = .tSeek1) :
    takeRxByte b s = seekSecond b (consume b s) := by
  rw [takeRxByte_receiving b (by rw [h]; rfl), receiveStep, consume_fsm, h]

theorem takeRxByte_tRead {s : State} (b : Byte) (h : s.fsm = .tRead) :
    takeRxByte b s = readTelemetry b (consume b s) := by
  rw [takeRxByte_receiving b (by rw [h]; rfl), receiveStep, consume_fsm, h]

/-- R101, the byte is a first header byte. -/
theorem takeRxByte_firstHeader {s : State} (h : s.fsm = .tSeek0) :
    takeRxByte Config.tlmHdr s = .next { consume Config.tlmHdr s with
      x := s.x.write 0 Config.tlmHdr, cnt := 1#8, fsm := .tSeek1 } :=
  (takeRxByte_tSeek0 _ h).trans ((seekFirst_eq_next _ _ _).mpr (.inl ⟨rfl, rfl⟩))

/-- R101, it is not. -/
theorem takeRxByte_skipped {s : State} {b : Byte} (h : s.fsm = .tSeek0) (hb : b ≠ Config.tlmHdr) :
    takeRxByte b s = .next (consume b s) := by
  have hstay : consume b s = { consume b s with fsm := .tSeek0 } := by rw [← h]; rfl
  exact (takeRxByte_tSeek0 _ h).trans ((seekFirst_eq_next _ _ _).mpr (.inr ⟨hb, hstay⟩))

/-- R102. -/
theorem takeRxByte_secondHeader {s : State} (h : s.fsm = .tSeek1) :
    takeRxByte Config.tlmHdr s = .next { consume Config.tlmHdr s with
      x := s.x.write 1 Config.tlmHdr, cnt := 2#8, acc := 0xB2#8, fsm := .tRead } :=
  (takeRxByte_tSeek1 _ h).trans ((seekSecond_eq_next _ _ _).mpr (.inl ⟨rfl, rfl⟩))

/-- R104. -/
theorem takeRxByte_halfHeader {s : State} {b : Byte} (h : s.fsm = .tSeek1) (hb : b ≠ Config.tlmHdr) :
    takeRxByte b s =
      .next (emit .tlmHdrInvalid { consume b s with cnt := 0#8, fsm := .tSeek0 }) :=
  (takeRxByte_tSeek1 _ h).trans ((seekSecond_eq_next _ _ _).mpr (.inr ⟨hb, rfl⟩))

/-- R105. -/
theorem takeRxByte_body {s : State} (b : Byte) (h : s.fsm = .tRead) (hc : s.cnt.toNat < 8) :
    takeRxByte b s = .next { consume b s with
      x := s.x.write s.cnt.toNat b, acc := s.acc + b, cnt := s.cnt + 1#8 } := by
  rw [takeRxByte_tRead b h, readTelemetry_eq_next]
  refine .inl ⟨hc, (readBody_eq_next _ _ _).mpr ⟨Nat.lt_trans hc (by decide), ?_⟩⟩
  rw [← h]
  rfl

/-- R106. -/
theorem takeRxByte_ninth {s : State} {d0 d1 s0 s1 t0 t1 : Byte} (b : Byte) (h : s.fsm = .tRead)
    (hc : s.cnt = 8#8) (hx : s.x.readBytes 2 6 = some [d0, d1, s0, s1, t0, t1]) :
    takeRxByte b s = .next (reportTelemetry (u16 d0 d1) (u16 s0 s1) (u16 t0 t1)
      (csumMatches s.acc b) { consume b s with x := s.x.write 8 b }) := by
  obtain ⟨-, hread⟩ := (s.x.readBytes_eq_some 2 6 _).mp hx
  rw [takeRxByte_tRead b h, readTelemetry_eq_next]
  refine .inr ⟨by rw [consume_cnt, hc]; rfl, (readLast_eq_next _ _ _).mpr ?_⟩
  exact ⟨d0, d1, s0, s1, t0, t1, hread 0 (by decide), hread 1 (by decide), hread 2 (by decide),
    hread 3 (by decide), hread 4 (by decide), hread 5 (by decide), rfl⟩

/-- Settles O26. -/
theorem seekingTheFirstHeaderByte : Obligations.SeekingTheFirstHeaderByte :=
  fun _ hs => ⟨⟨_, takeRxByte_firstHeader hs, holdsByte_write _ _ _⟩,
    fun _ hb => takeRxByte_skipped hs hb⟩

/-- Settles O27: a half-header is reported, and the byte examined as a first header byte in the state
after the report is skipped, which leads to the same state. -/
theorem seekingTheSecondHeaderByte : Obligations.SeekingTheSecondHeaderByte := by
  refine fun s hs => ⟨⟨_, takeRxByte_secondHeader hs, holdsByte_write _ _ _⟩, fun b hb => ?_⟩
  have hhalf := takeRxByte_halfHeader hs hb
  have hskip := takeRxByte_skipped (s := emit .tlmHdrInvalid { s with cnt := 0#8, fsm := .tSeek0 })
    rfl hb
  exact ⟨hhalf, hhalf.trans hskip.symm⟩

/-- Settles O28. -/
theorem readingABodyByte : Obligations.ReadingABodyByte :=
  fun _ b hs _ hc => ⟨_, takeRxByte_body b hs hc, holdsByte_write _ _ _⟩

/-- Settles O29. -/
theorem ninthByteReportsTheFrame : Obligations.NinthByteReportsTheFrame :=
  fun _ b _ _ _ _ _ _ hs hc hx => ⟨_, takeRxByte_ninth b hs hc hx, holdsByte_write _ _ _⟩

/-! ## A whole frame -/

/-- Two header bytes met while seeking: the frame begins (R101, R102). -/
theorem takeRxBytes_headerPair {s : State} (h : s.fsm = .tSeek0) :
    takeRxBytes [Config.tlmHdr, Config.tlmHdr] s = .next { s with
      x := s.x.writeBytes 0 [Config.tlmHdr, Config.tlmHdr], cnt := 2#8, acc := 0xB2#8, fsm := .tRead,
      rxLog := s.rxLog ++ [Config.tlmHdr, Config.tlmHdr] } := by
  rw [takeRxBytes_cons _ _ s (by rw [h]; rfl), takeRxByte_firstHeader h, andThen_next,
    takeRxBytes_singleton _ _ rfl, takeRxByte_secondHeader rfl]
  simp [consume, Memory.writeBytes]

/-- Body bytes are stored and summed one after the other (R105). -/
theorem takeRxBytes_body (bs : List Byte) {s : State} (h : s.fsm = .tRead)
    (hc : s.cnt.toNat + bs.length ≤ 8) :
    takeRxBytes bs s = .next { s with
      x := s.x.writeBytes s.cnt.toNat bs, acc := s.acc + checksum bs,
      cnt := s.cnt + BitVec.ofNat 8 bs.length, rxLog := s.rxLog ++ bs } := by
  induction bs generalizing s with
  | nil => simp [Memory.writeBytes, checksum]
  | cons b bs ih =>
    rw [List.length_cons] at hc
    have hlen : BitVec.ofNat 8 (bs.length + 1) = 1#8 + BitVec.ofNat 8 bs.length := by
      rw [Nat.add_comm, BitVec.ofNat_add]
    have hnext : (s.cnt + 1#8).toNat = s.cnt.toNat + 1 := by
      rw [BitVec.toNat_add, BitVec.toNat_ofNat]
      omega
    rw [takeRxBytes_cons _ _ s (by rw [h]; rfl), takeRxByte_body b h (by omega), andThen_next,
      ih]
    · simp [consume, Memory.writeBytes, checksum, hnext, hlen, BitVec.add_assoc]
    · exact h
    · rw [hnext]
      omega

/-- The six body bytes of a telemetry frame, offsets 2 to 7 (R61). -/
def telemetryBody (distance strength temp : Half) : List Byte :=
  [lowByte distance, highByte distance, lowByte strength, highByte strength, lowByte temp,
    highByte temp]

theorem encodeTelemetry_eq (distance strength temp : Half) (csum : Byte) :
    encodeTelemetry distance strength temp csum =
      [Config.tlmHdr, Config.tlmHdr] ++ (telemetryBody distance strength temp ++ [csum]) := rfl

/-- The two header bytes sum to B2, where the running checksum of a frame begins (R92, R102). -/
theorem checksum_take_encodeTelemetry (distance strength temp : Half) (csum : Byte) :
    checksum ((encodeTelemetry distance strength temp csum).take 8) =
      0xB2#8 + checksum (telemetryBody distance strength temp) :=
  checksum_append [Config.tlmHdr, Config.tlmHdr] (telemetryBody distance strength temp)

/-- A telemetry frame met while seeking is decoded and reported, whatever `x` and `cnt` held before
(R101 to R106). -/
theorem takeRxBytes_encodeTelemetry {s : State} (distance strength temp : Half) (csum : Byte)
    (h : s.fsm = .tSeek0) :
    takeRxBytes (encodeTelemetry distance strength temp csum) s =
      .next (reportTelemetry distance strength temp
        (csumMatches (checksum ((encodeTelemetry distance strength temp csum).take 8)) csum)
        { s with
          x := s.x.writeBytes 0 (encodeTelemetry distance strength temp csum),
          acc := checksum ((encodeTelemetry distance strength temp csum).take 8),
          rxLog := s.rxLog ++ encodeTelemetry distance strength temp csum }) := by
  have hstored := Memory.readBytes_writeBytes_from (s.x.writeBytes 0 [Config.tlmHdr, Config.tlmHdr])
    2 (telemetryBody distance strength temp)
  rw [checksum_take_encodeTelemetry, encodeTelemetry_eq, takeRxBytes_append,
    takeRxBytes_headerPair h, andThen_next, takeRxBytes_append, takeRxBytes_body _ rfl (by rfl),
    andThen_next, takeRxBytes_singleton _ _ rfl, takeRxByte_ninth csum rfl rfl hstored]
  simp only [u16_lowByte_highByte, consume, List.append_assoc]
  rfl

/-- Settles O30. -/
theorem telemetryFrameDecoded : Obligations.TelemetryFrameDecoded := by
  intro s distance strength temp csum hs hcnt
  refine ⟨_, ?_, holdsFrame_writeBytes s.x (encodeTelemetry distance strength temp csum)⟩
  rw [exec_of_encode_rx _ _ s rfl, receiveFrame, bytesToCome_start _ s hcnt,
    takeRxBytes_encodeTelemetry distance strength temp csum hs, reportTelemetry, emit, ← hs, ← hcnt]
  rfl

/-! ## Garbage before a frame -/

/-- `RxByte` events, one for each of some bytes, are `read_exact` of the bytes: where the block waits
for no byte neither does anything (R94, log entry 3). -/
theorem takeEvents_rxBytes (bs : List Byte) (s : State) :
    takeEvents (bs.map .rxByte) s = takeRxBytes bs s := by
  induction bs generalizing s with
  | nil => rfl
  | cons b bs ih =>
    rw [List.map_cons, takeEvents, takeEvent, funext ih]
    cases h : s.fsm.receiving with
    | true => rw [takeRxBytes_cons b bs s h]
    | false =>
      rw [takeRxBytes_not_receiving _ s h, takeRxByte, if_neg (by simp [h]), andThen_next,
        takeRxBytes_not_receiving _ s h]

/-- Bytes in which no frame begins, as the decoder takes them apart: bytes it skips (R101) and header
bytes it gives up at the next byte (R104). -/
inductive HeaderFree : List Byte → Prop
  | nil : HeaderFree []
  | skip {b : Byte} {g : List Byte} (hb : b ≠ Config.tlmHdr) (hg : HeaderFree g) : HeaderFree (b :: g)
  | half {b : Byte} {g : List Byte} (hb : b ≠ Config.tlmHdr) (hg : HeaderFree g) :
      HeaderFree (Config.tlmHdr :: b :: g)

/-- Bytes with no two consecutive header bytes and no header byte at the end (R111). -/
theorem headerFree_of_no_pair : ∀ {g : List Byte},
    (∀ u v : List Byte, g ≠ u ++ [Config.tlmHdr, Config.tlmHdr] ++ v) →
    g.getLast? ≠ some Config.tlmHdr → HeaderFree g
  | [], _, _ => .nil
  | [b], _, hlast => .skip (by simpa using hlast) .nil
  | b :: c :: g, hpair, hlast => by
    have hcg : HeaderFree (c :: g) :=
      headerFree_of_no_pair (fun u v h => hpair (b :: u) v (by simp [h])) (by simpa using hlast)
    by_cases hb : b = Config.tlmHdr
    · subst hb
      cases hcg with
      | skip hc hg => exact .half hc hg
      | half hc hg => exact absurd rfl (hpair [] _)
    · exact .skip hb hcg

/-- The state a half-header leaves: its first byte stays in `x`, where no rule reads it (R104). -/
def afterHalfHeader (b : Byte) (s : State) : State :=
  emit .tlmHdrInvalid { s with
    x := s.x.write 0 Config.tlmHdr, cnt := 0#8, fsm := .tSeek0, rxLog := s.rxLog ++ [Config.tlmHdr, b] }

theorem takeRxBytes_halfHeader {s : State} {b : Byte} (h : s.fsm = .tSeek0) (hb : b ≠ Config.tlmHdr) :
    takeRxBytes [Config.tlmHdr, b] s = .next (afterHalfHeader b s) := by
  rw [takeRxBytes_cons _ _ s (by rw [h]; rfl), takeRxByte_firstHeader h, andThen_next,
    takeRxBytes_singleton _ _ rfl, takeRxByte_halfHeader rfl hb]
  simp [afterHalfHeader, consume]

/-- Garbage without a header pair is skipped: one TLM_HDR_INVALID for each header byte in it, and the
decoder seeks on (R101, R104, R111). -/
theorem takeRxBytes_headerFree {g : List Byte} (hg : HeaderFree g) {s : State}
    (h : s.fsm = .tSeek0) :
    ∃ t, takeRxBytes g s = .next t ∧ t.fsm = .tSeek0 ∧ t.err = s.err ∧
      t.out = s.out ++ List.replicate (g.count Config.tlmHdr) (.res .tlmHdrInvalid) := by
  induction hg generalizing s with
  | nil => exact ⟨s, rfl, h, rfl, by simp⟩
  | @skip b g hb _ ih =>
    obtain ⟨t, ht, hf, herr, hout⟩ := ih (s := consume b s) h
    refine ⟨t, ?_, hf, herr, ?_⟩
    · rw [takeRxBytes_cons b g s (by rw [h]; rfl), takeRxByte_skipped h hb, andThen_next, ht]
    · rw [hout, consume_out, List.count_cons_of_ne hb]
  | @half b g hb _ ih =>
    obtain ⟨t, ht, hf, herr, hout⟩ := ih (s := afterHalfHeader b s) rfl
    refine ⟨t, ?_, hf, herr, ?_⟩
    · rw [show Config.tlmHdr :: b :: g = [Config.tlmHdr, b] ++ g from rfl, takeRxBytes_append,
        takeRxBytes_halfHeader h hb, andThen_next, ht]
    · rw [hout, List.count_cons_self, List.count_cons_of_ne hb, List.replicate_succ]
      simp [afterHalfHeader]

/-- Settles O31: after TLM the garbage leaves the decoder seeking, and from there the frame is decoded
whatever stands in `x`. -/
theorem resynchronisationAfterGarbage : Obligations.ResynchronisationAfterGarbage := by
  intro s r g distance strength temp csum hs hsel hpair hlast
  have htlm : takeEvent (.hostReq r) s = .next { hideReceived (acceptOp .tlm s) with fsm := .tSeek0 } := by
    rw [takeEvent, (decodeHost_of_opSel r).1 hsel, exec_tlm_idle hs]
  obtain ⟨u, hu, hf, herr, hout⟩ := takeRxBytes_headerFree (headerFree_of_no_pair hpair hlast)
    (s := { hideReceived (acceptOp .tlm s) with fsm := .tSeek0 }) rfl
  have hframe := takeRxBytes_encodeTelemetry distance strength temp csum hf
  refine ⟨_, Eq.trans ?_ hframe, rfl, rfl, herr, rfl, rfl, rfl, ?_⟩
  · rw [List.singleton_append, takeEvents, htlm, andThen_next, takeEvents_rxBytes,
      takeRxBytes_append, hu, andThen_next]
  · rw [reportTelemetry_out, hout]
    rfl

end Sys2Proof.Machine

/-! PROOF. Building and sending command frames (42_command_encode_send.md): the built frame is a legal
frame of the wire format that the parser accepts, BUILD and SEND put it into `t`, and each `TxAccept`
hands over its next byte. -/

namespace Sys2Proof.Machine

open Sys2Proof.Safety

/-! ## The built frame -/

/-- R120: the last byte is the checksum of the others. -/
theorem getLast?_buildCommand (id : Byte) (P : List Byte) :
    (buildCommand id P).getLast? = some (checksum (buildCommand id P).dropLast) := by
  rw [buildCommand, List.getLast?_concat, List.dropLast_concat]

/-- The length byte of a request is the length of its frame (R67). -/
theorem toNat_requestLen_eq_length {P : List Byte} (id : Byte) (h : P.length ≤ Config.pMax) :
    (requestLen P.length).toNat = (buildCommand id P).length := by
  rw [toNat_requestLen h, length_buildCommand]

/-- Settles O8. -/
theorem buildCommandFrame : Obligations.BuildCommandFrame := fun id P hP =>
  ⟨(length_buildCommand id P).trans (Nat.add_comm _ _),
    ⟨requestLen P.length, toNat_requestLen_eq_length id hP, rfl⟩, getLast?_buildCommand id P⟩

/-- A built frame has the layout of a response with the checksum a response needs (R62, R63). -/
theorem buildCommand_eq_encodeResponse (id : Byte) (P : List Byte) :
    buildCommand id P = encodeResponse (requestLen P.length) id P
      (responseChecksum (requestLen P.length) id P) := rfl

theorem responseFramed_requestLen {P : List Byte} (h : P.length ≤ Config.pMax) :
    responseFramed (requestLen P.length) P = true := by
  rw [responseFramed_iff, toNat_requestLen h, Config.lenMin]
  exact ⟨Nat.le_add_left _ _, rfl⟩

/-- R127 as a fact about the two functions. -/
theorem parseFrame_buildCommand {id : Byte} {P : List Byte} (hid : (cmdOfByte id).isSome = true)
    (hP : P.length ≤ Config.pMax) : parseFrame (buildCommand id P) = .ok (id, P) := by
  have hlen : (requestBody id P).length = P.length + 3 := rfl
  have hl := toNat_requestLen hP
  rw [buildCommand, parseFrame_of_good (f := requestBody id P) (l := requestLen P.length) rfl
    (by omega) (by omega) rfl (frameVerdict_eq_good.mpr ⟨hid, rfl⟩), hl, Nat.add_sub_cancel]
  simp [requestBody]

/-! ## Acceptance of BUILD and SEND -/

theorem requestAccepted_iff {cmd plen : Byte} :
    requestAccepted cmd plen = true ↔ (cmdOfByte cmd).isSome = true ∧ plen.toNat ≤ 251 := by
  rw [requestAccepted, Bool.and_eq_true, decide_eq_true_iff, Config.pMax]

theorem not_requestAccepted {cmd plen : Byte} (h : cmdOfByte cmd = none ∨ 251 < plen.toNat) :
    ¬ requestAccepted cmd plen = true := by
  rw [requestAccepted_iff]
  rintro ⟨hknown, hfit⟩
  obtain hnone | hlong := h
  · simp [hnone] at hknown
  · omega

/-- BUILD in `IDLE` (R121, R178). -/
theorem exec_build_idle {s : State} (cmd plen : Byte) (params : List Byte) (hs : s.fsm = .idle) :
    exec (.build cmd plen params) s =
      if requestAccepted cmd plen then
        .next (emit .buildDone (loadFrame (requestFrame cmd plen params) (acceptOp .build s)))
      else .next (refuseRequest .badRequest s) := by
  rw [exec, execBuild, onRequest_idle s _ hs]

/-- SEND in `IDLE` (R122, R178). -/
theorem exec_send_idle {s : State} (cmd plen : Byte) (params : List Byte) (hs : s.fsm = .idle) :
    exec (.send cmd plen params) s =
      if requestAccepted cmd plen then
        .next { loadFrame (requestFrame cmd plen params) (acceptOp .send s) with fsm := .cSend }
      else .next (refuseRequest .badRequest s) := by
  rw [exec, execSend, onRequest_idle s _ hs]

/-- Settles O32. -/
theorem buildAccepted : Obligations.BuildAccepted := by
  intro s cmd plen params hs
  rw [exec_build_idle cmd plen params hs]
  exact ⟨fun h => ⟨_, if_pos (requestAccepted_iff.mpr h), holdsFrame_writeBytes s.t _⟩,
    fun h => if_neg (not_requestAccepted h)⟩

/-- Settles O33. -/
theorem sendAccepted : Obligations.SendAccepted := by
  intro s cmd plen params hs
  rw [exec_send_idle cmd plen params hs]
  exact ⟨fun h => ⟨_, if_pos (requestAccepted_iff.mpr h), holdsFrame_writeBytes s.t _⟩,
    fun h => if_neg (not_requestAccepted h)⟩

/-- Settles O23: whatever the operation, the failure is one `raise`. -/
theorem writeFailureEndsTheSession : Obligations.WriteFailureEndsTheSession :=
  fun _ hs => if_pos hs

/-! ## Handing over a frame -/

/-- The operations that transmit a frame (R122, R156, R157). -/
def transmits (o : Op) : Prop := o = .send ∨ o = .setfreq ∨ o = .getver

/-- The state after the last bytes `bs` of the frame in `t` are handed over: SEND is done (R124),
SETFREQ and GETVER go on to receive (R158). -/
def frameSent (bs : List Byte) (s : State) : State :=
  { s with
    txIdx := s.txLen, fsm := if s.op = .send then .idle else .rHdr,
    out := s.out ++ bs.map .tx ++ (if s.op = .send then [.res .sendDone] else []) }

theorem frameSent_of_send {s : State} (bs : List Byte) (hop : s.op = .send) :
    frameSent bs s = { s with
      txIdx := s.txLen, fsm := .idle, out := s.out ++ bs.map .tx ++ [.res .sendDone] } := by
  rw [frameSent, if_pos hop, if_pos hop]

theorem frameSent_of_request {s : State} (bs : List Byte) (hop : s.op = .setfreq ∨ s.op = .getver) :
    frameSent bs s = { s with
      txIdx := s.txLen, fsm := .rHdr, out := s.out ++ bs.map .tx } := by
  have hne : s.op ≠ .send := by obtain h | h := hop <;> simp [h]
  rw [frameSent, if_neg hne, if_neg hne, List.append_nil]

/-- R123, a byte that is not the last. -/
theorem takeTxAccept_inner {s : State} {b : Byte} (hf : s.fsm = .cSend)
    (hi : s.txIdx.toNat + 1 < s.txLen.toNat) (hb : s.t.read s.txIdx.toNat = some b) :
    takeTxAccept s = .next { s with txIdx := s.txIdx + 1#8, out := s.out ++ [.tx b] } := by
  have hroom : s.txIdx.toNat < Config.bufSize := by
    have := s.txLen.isLt
    rw [Config.bufSize]
    omega
  refine (takeTxAccept_eq_next _ _).mpr (.inl ⟨hf, (sendByte_eq_next _ _).mpr
    ⟨hroom, b, hb, .inl ⟨hi, ?_⟩⟩⟩)
  rw [← hf]
  rfl

/-- R124, R158: the last byte of the frame. -/
theorem takeTxAccept_last {s : State} {b : Byte} (hf : s.fsm = .cSend) (hop : transmits s.op)
    (hi : s.txIdx.toNat + 1 = s.txLen.toNat) (hb : s.t.read s.txIdx.toNat = some b) :
    takeTxAccept s = .next (frameSent [b] s) := by
  have hlen := s.txLen.isLt
  have hroom : s.txIdx.toNat < Config.bufSize := by
    rw [Config.bufSize]
    omega
  have hidx : s.txIdx + 1#8 = s.txLen := by bv_omega
  refine (takeTxAccept_eq_next _ _).mpr (.inl ⟨hf, (sendByte_eq_next _ _).mpr
    ⟨hroom, b, hb, .inr ⟨hi, (sendFinished_eq_next _ _).mpr ?_⟩⟩⟩)
  obtain hop | hop := hop
  · exact .inl ⟨hop, by rw [frameSent_of_send _ hop, hidx]; rfl⟩
  · exact .inr ⟨hop, by rw [frameSent_of_request _ hop, hidx]; rfl⟩

/-- Settles O35. -/
theorem handingOverOneByte : Obligations.HandingOverOneByte := by
  intro s b hf _ hb
  refine ⟨fun hi => takeTxAccept_inner hf hi hb, fun hi hop => ?_, fun hi hop => ?_⟩
  · rw [takeEvent, takeTxAccept_last hf (.inl hop) hi hb, frameSent_of_send _ hop, List.append_assoc]
    rfl
  · rw [takeEvent, takeTxAccept_last hf (.inr hop) hi hb, frameSent_of_request _ hop]
    rfl

/-- The bytes still in `t` are handed over in index order (R49, R95). -/
theorem takeTxAccepts_rest (bs : List Byte) {s : State} {b : Byte} (hf : s.fsm = .cSend)
    (hop : transmits s.op) (hlen : s.txIdx.toNat + (bs.length + 1) = s.txLen.toNat)
    (hread : s.t.readBytes s.txIdx.toNat (bs.length + 1) = some (b :: bs)) :
    takeTxAccepts (bs.length + 1) s = .next (frameSent (b :: bs) s) := by
  obtain ⟨_, _, hcons, hb, hbs⟩ := (Memory.readBytes_succ_eq_some _ _ _ _).mp hread
  cases hcons
  induction bs generalizing s b with
  | nil =>
    rw [List.length_nil, takeTxAccepts, takeTxAccept_last hf hop hlen hb]
    rfl
  | cons c bs ih =>
    rw [List.length_cons] at hlen hbs ⊢
    have hnext : (s.txIdx + 1#8).toNat = s.txIdx.toNat + 1 := by
      have := s.txLen.isLt
      bv_omega
    obtain ⟨_, _, hcons, hc, hrest⟩ := (Memory.readBytes_succ_eq_some _ _ _ _).mp hbs
    cases hcons
    rw [← hnext] at hc hrest hbs
    rw [takeTxAccepts, takeTxAccept_inner hf (by omega) hb, andThen_next,
      ih (s := { s with txIdx := s.txIdx + 1#8, out := s.out ++ [.tx b] }) hf hop
        (by rw [hnext]; exact (Nat.add_right_comm _ _ _).trans hlen) hbs hc hrest]
    simp [frameSent]

/-- What is left of the frame in `t` behind the bytes handed over. -/
theorem readBytes_of_visibleT {s : State} {f : List Byte} {n : Nat} (hv : s.visibleT = some f)
    (hn : s.txIdx.toNat + n = s.txLen.toNat) :
    s.t.readBytes s.txIdx.toNat n = some (f.drop s.txIdx.toNat) := by
  obtain ⟨hlen, hread⟩ := (Memory.readBytes_eq_some _ _ _ _).mp hv
  refine (Memory.readBytes_eq_some _ _ _ _).mpr ⟨by rw [List.length_drop]; omega, fun k hk => ?_⟩
  rw [List.getElem?_drop, ← hread _ (by omega), Nat.zero_add]

/-- The frame in `t` is handed over to its last byte, wherever the transport stands (R95, R123). -/
theorem takeTxAccepts_frame {s : State} {f : List Byte} (hf : s.fsm = .cSend) (hop : transmits s.op)
    (hlt : s.txIdx.toNat < s.txLen.toNat) (hv : s.visibleT = some f) :
    takeTxAccepts (s.txLen.toNat - s.txIdx.toNat) s =
      .next (frameSent (f.drop s.txIdx.toNat) s) := by
  have hrest := readBytes_of_visibleT hv (n := s.txLen.toNat - s.txIdx.toNat) (by omega)
  obtain ⟨hlen, -⟩ := (Memory.readBytes_eq_some _ _ _ _).mp hrest
  cases hcons : f.drop s.txIdx.toNat with
  | nil =>
    rw [hcons, List.length_nil] at hlen
    omega
  | cons b bs =>
    rw [hcons, List.length_cons] at hlen
    rw [hcons, ← hlen] at hrest
    rw [← hlen]
    exact takeTxAccepts_rest bs hf hop (by omega) hrest

/-- A frame none of whose bytes is handed over yet is handed over whole (R95). -/
theorem takeTxAccepts_whole {s : State} {f : List Byte} (hf : s.fsm = .cSend)
    (hop : transmits s.op) (h0 : s.txIdx = 0#8) (hpos : 0 < f.length) (hv : s.visibleT = some f) :
    takeTxAccepts f.length s = .next (frameSent f s) := by
  obtain ⟨hlen, -⟩ := (Memory.readBytes_eq_some _ _ _ _).mp hv
  have hidx : s.txIdx.toNat = 0 := by rw [h0]; rfl
  have hrun := takeTxAccepts_frame hf hop (by omega) hv
  rwa [hidx, Nat.sub_zero, List.drop_zero, ← hlen] at hrun

/-- Every row a request frame belongs to carries all of its bytes (R62, R79). -/
theorem encode_of_mem_requestRows {id : Byte} {params : List Byte} {csum : Byte} {i : Instr}
    (h : i ∈ requestRows id params csum) : encode i = .tx (encodeRequest id params csum) := by
  simp only [requestRows, List.mem_append, List.mem_singleton] at h
  obtain ((rfl | h) | h) | h := h
  · rfl
  · split_ifs at h with hid
    · obtain ⟨rfl, rfl⟩ := hid
      obtain rfl := List.mem_singleton.mp h
      rfl
    · cases h
  · split_ifs at h with hid
    · obtain rfl := hid
      obtain rfl := List.mem_singleton.mp h
      rfl
    · cases h
  · split at h
    · split_ifs at h with hid
      · obtain rfl := hid
        obtain rfl := List.mem_singleton.mp h
        rw [encode, freqParams_u16]
      · cases h
    · cases h

/-- Settles O36: the frame of the instruction is the one in `t`, so executing it hands over what is
left of it. -/
theorem requestFrameIsTransmitted : Obligations.RequestFrameIsTransmitted := by
  intro s id params csum i hrow hf hop hlt hv
  rw [exec_of_encode_tx i _ s (encode_of_mem_requestRows hrow), transmitFrame, if_pos hf, bytesToSend,
    if_pos hv, takeTxAccepts_frame hf hop hlt hv]
  rfl

/-- `TxAccept` events are `write` of as many bytes (R95). -/
theorem takeEvents_txAccepts (n : Nat) (s : State) :
    takeEvents (List.replicate n .txAccept) s = takeTxAccepts n s := by
  induction n generalizing s with
  | zero => rfl
  | succ n ih => rw [List.replicate_succ, takeEvents, takeEvent, takeTxAccepts, funext ih]

end Sys2Proof.Machine

/-! PROOF. Receiving a legal response (43_command_receive.md): one equation for each byte the receiver
goes on with, then the payload, the bytes a checksum covers, and the whole frame, which is handed to the
operation that waits for it. -/

namespace Sys2Proof.Machine

open Sys2Proof.Safety

/-! ## One byte -/

theorem takeRxByte_rHdr {s : State} (b : Byte) (h : s.fsm = .rHdr) :
    takeRxByte b s = receiveHeader b (consume b s) := by
  rw [takeRxByte_receiving b (by rw [h]; rfl), receiveStep, consume_fsm, h]

theorem takeRxByte_rLen {s : State} (b : Byte) (h : s.fsm = .rLen) :
    takeRxByte b s = receiveLength b (consume b s) := by
  rw [takeRxByte_receiving b (by rw [h]; rfl), receiveStep, consume_fsm, h]

theorem takeRxByte_rPay {s : State} (b : Byte) (h : s.fsm = .rPay) :
    takeRxByte b s = receivePayload b (consume b s) := by
  rw [takeRxByte_receiving b (by rw [h]; rfl), receiveStep, consume_fsm, h]

theorem takeRxByte_rCsum {s : State} (b : Byte) (h : s.fsm = .rCsum) :
    takeRxByte b s = receiveChecksum b (consume b s) := by
  rw [takeRxByte_receiving b (by rw [h]; rfl), receiveStep, consume_fsm, h]

/-- R136, the byte is the header byte. -/
theorem takeRxByte_header {s : State} (h : s.fsm = .rHdr) :
    takeRxByte Config.cmdHdr s = .next { consume Config.cmdHdr s with
      x := s.x.write 0 Config.cmdHdr, cnt := 1#8, acc := Config.cmdHdr, fsm := .rLen } :=
  (takeRxByte_rHdr _ h).trans ((receiveHeader_eq_next _ _ _).mpr (.inl ⟨rfl, rfl⟩))

/-- R137, a length of at least 4. -/
theorem takeRxByte_length {s : State} {b : Byte} (h : s.fsm = .rLen) (hb : Config.lenMin ≤ b.toNat) :
    takeRxByte b s = .next { consume b s with
      x := s.x.write 1 b, cnt := 2#8, len := b, acc := s.acc + b, fsm := .rPay } :=
  (takeRxByte_rLen _ h).trans ((receiveLength_eq_next _ _ _).mpr (.inl ⟨hb, rfl⟩))

/-- R138. -/
theorem takeRxByte_payload {s : State} (b : Byte) (h : s.fsm = .rPay)
    (hc : s.cnt.toNat < Config.bufSize) :
    takeRxByte b s = .next { consume b s with
      x := s.x.write s.cnt.toNat b, acc := s.acc + b, cnt := s.cnt + 1#8,
      fsm := if s.cnt.toNat + 2 = s.len.toNat then .rCsum else .rPay } :=
  (takeRxByte_rPay _ h).trans ((receivePayload_eq_next _ _ _).mpr ⟨hc, rfl⟩)

/-- R139, R140: a checksum byte with a good verdict is stored, and the operation finishes. -/
theorem takeRxByte_goodVerdict {s : State} {b id : Byte} (h : s.fsm = .rCsum)
    (hc : s.cnt.toNat < Config.bufSize) (hid : s.x.read 2 = some id)
    (hv : frameVerdict id s.acc b = .good) :
    takeRxByte b s = finishResponse id { consume b s with
      x := s.x.write s.cnt.toNat b, cnt := s.len } := by
  rw [takeRxByte_rCsum b h, receiveChecksum, withByte_read .x 2 (consume b s) _ id (by decide) hid,
    consume_cnt, storeByte_inside _ _ (consume b s) _ hc]
  simp only [consume_acc, hv]
  rfl

/-! ## A whole frame -/

/-- Payload bytes are stored and summed one after the other, up to the one before the checksum byte
(R138). -/
theorem takeRxBytes_payload (bs : List Byte) {s : State} (h : s.fsm = .rPay)
    (hc : s.cnt.toNat + 2 ≤ s.len.toNat) (hlen : s.cnt.toNat + bs.length + 1 ≤ s.len.toNat) :
    takeRxBytes bs s = .next { s with
      x := s.x.writeBytes s.cnt.toNat bs, acc := s.acc + checksum bs,
      cnt := s.cnt + BitVec.ofNat 8 bs.length, rxLog := s.rxLog ++ bs,
      fsm := if s.cnt.toNat + bs.length + 1 = s.len.toNat then .rCsum else .rPay } := by
  induction bs generalizing s with
  | nil =>
    rw [takeRxBytes_nil, List.length_nil, if_neg (by omega), ← h]
    simp [Memory.writeBytes, checksum]
  | cons b bs ih =>
    have hmax := s.len.isLt
    rw [List.length_cons] at hlen ⊢
    have hnext : (s.cnt + 1#8).toNat = s.cnt.toNat + 1 := by bv_omega
    have hcount : BitVec.ofNat 8 (bs.length + 1) = 1#8 + BitVec.ofNat 8 bs.length := by
      rw [Nat.add_comm, BitVec.ofNat_add]
    rw [takeRxBytes_cons b bs s (by rw [h]; rfl),
      takeRxByte_payload b h (by rw [Config.bufSize]; omega), andThen_next]
    by_cases hlast : s.cnt.toNat + 2 = s.len.toNat
    · obtain rfl : bs = [] := List.length_eq_zero_iff.mp (by omega)
      simp [hlast, consume, Memory.writeBytes, checksum]
    · rw [if_neg hlast, ih rfl]
      · simp [consume, Memory.writeBytes, checksum, hnext, hcount, BitVec.add_assoc, Nat.add_assoc,
          Nat.add_comm 1]
      all_goals
        simp only [hnext, consume_len]
        omega

/-- The state in which all bytes of a response but the last are stored and summed. -/
def awaitingChecksum (len id : Byte) (data : List Byte) (s : State) : State :=
  { s with
    x := s.x.writeBytes 0 (responseBody len id data), cnt := len - 1#8, len := len,
    acc := responseChecksum len id data, fsm := .rCsum, rxLog := s.rxLog ++ responseBody len id data }

/-- The bytes a response's checksum covers are taken to the last (R136 to R138). -/
theorem takeRxBytes_responseBody {s : State} {len : Byte} {data : List Byte} (id : Byte)
    (h : s.fsm = .rHdr) (hframed : responseFramed len data = true) :
    takeRxBytes (responseBody len id data) s = .next (awaitingChecksum len id data s) := by
  obtain ⟨hmin, hlen⟩ := responseFramed_iff.mp hframed
  have hcount : 2#8 + BitVec.ofNat 8 (data.length + 1) = len - 1#8 := by bv_omega
  have hfull : 2 + (data.length + 1) + 1 = len.toNat := by omega
  rw [show responseBody len id data = Config.cmdHdr :: len :: (id :: data) from rfl,
    takeRxBytes_cons _ _ s (by rw [h]; rfl), takeRxByte_header h, andThen_next,
    takeRxBytes_cons _ _ _ rfl, takeRxByte_length rfl hmin, andThen_next,
    takeRxBytes_payload (id :: data) rfl (by rw [Config.lenMin] at hmin; simp; omega)
      (by simp; omega)]
  simp [awaitingChecksum, responseBody, responseChecksum, consume, Memory.writeBytes, checksum,
    hcount, hfull, BitVec.add_assoc]

/-- The state in which all bytes of a legal response are stored and the operation has to finish. -/
def responseStored (len id : Byte) (data : List Byte) (s : State) : State :=
  { s with
    x := s.x.writeBytes 0 (encodeResponse len id data (responseChecksum len id data)), cnt := len,
    len := len, acc := responseChecksum len id data, fsm := .rCsum,
    rxLog := s.rxLog ++ encodeResponse len id data (responseChecksum len id data) }

/-- The checksum byte of a known legal response finishes the operation that waits for it (R140). -/
theorem takeRxByte_goodChecksum {s : State} {len id : Byte} {data : List Byte}
    (hframed : responseFramed len data = true) (hid : (cmdOfByte id).isSome = true) :
    takeRxByte (responseChecksum len id data) (awaitingChecksum len id data s) =
      finishResponse id (responseStored len id data s) := by
  obtain ⟨-, hlen⟩ := responseFramed_iff.mp hframed
  have hcnt : (len - 1#8).toNat = (responseBody len id data).length := by
    simp only [responseBody, List.length_append, List.length_cons, List.length_nil]
    bv_omega
  have hroom : (len - 1#8).toNat < Config.bufSize := by
    rw [Config.bufSize]
    bv_omega
  have hread : (s.x.writeBytes 0 (responseBody len id data)).read 2 = some id := by
    simp [Memory.read_writeBytes, responseBody]
  have hstore : (s.x.writeBytes 0 (responseBody len id data)).write (len - 1#8).toNat
      (responseChecksum len id data) =
        s.x.writeBytes 0 (encodeResponse len id data (responseChecksum len id data)) := by
    rw [hcnt, encodeResponse, ← responseBody, Memory.writeBytes_append, Nat.zero_add]
    rfl
  have hgood : frameVerdict id (awaitingChecksum len id data s).acc (responseChecksum len id data) =
      .good := frameVerdict_eq_good.mpr ⟨hid, rfl⟩
  rw [takeRxByte_goodVerdict rfl hroom hread hgood, responseStored, ← hstore]
  simp [awaitingChecksum, consume, encodeResponse, responseBody]

/-- A legal response is taken whole and given to the operation that waits for it (R136 to R140). -/
theorem takeRxBytes_legalResponse {s : State} {len id : Byte} {data : List Byte} (h : s.fsm = .rHdr)
    (hframed : responseFramed len data = true) (hid : (cmdOfByte id).isSome = true) :
    takeRxBytes (encodeResponse len id data (responseChecksum len id data)) s =
      finishResponse id (responseStored len id data s) := by
  rw [← takeRxByte_goodChecksum hframed hid, encodeResponse, ← responseBody, takeRxBytes_append,
    takeRxBytes_responseBody id h hframed, andThen_next, takeRxBytes_singleton _ _ rfl]

/-- RECV reports the id and the data bytes of the response stored (R141). -/
theorem finishResponse_recv {s : State} {len id : Byte} {data : List Byte} (hop : s.op = .recv)
    (hframed : responseFramed len data = true) :
    finishResponse id (responseStored len id data s) =
      .next (emit (.recvDone id data) (recordResponse id (responseStored len id data s))) := by
  obtain ⟨-, hlen⟩ := responseFramed_iff.mp hframed
  have hvisible : (responseStored len id data s).visibleX =
      some (encodeResponse len id data (responseChecksum len id data)) := by
    have hcnt : len.toNat = (encodeResponse len id data (responseChecksum len id data)).length := by
      simp [encodeResponse]
      omega
    rw [State.visibleX, responseStored, hcnt, Memory.readBytes_writeBytes]
  have hdata : (responseStored len id data s).x.readBytes 3 (len.toNat - 4) = some data := by
    rw [readBytes_of_visibleX hvisible (by simp only [responseStored]; omega), ← hlen]
    simp [encodeResponse]
  exact (finishResponse_eq_next _ _ _).mpr
    (.inl ⟨hop, (finishRecv_eq_next _ _ _).mpr ⟨data, hdata, rfl⟩⟩)

end Sys2Proof.Machine

/-! PROOF. From SEND back to RECV (42_command_encode_send.md rule R127): a receiver fed with the bytes
that SEND hands over reports the id and the parameters of the request. -/

namespace Sys2Proof.Machine

open Sys2Proof.Safety

/-- The state that accepting SEND leads to, with the frame it encodes (R122). -/
def sendStarted (f : List Byte) (s : State) : State :=
  { loadFrame f (acceptOp .send s) with fsm := .cSend }

/-- A well-formed SEND request in `IDLE` loads the frame of its id and parameters (R77, R122). -/
theorem takeEvent_send {s : State} {r : HostReq} (hs : s.fsm = .idle) (hsel : r.opSel = 2#3)
    (hid : (cmdOfByte r.cmd).isSome = true) (hfit : r.plen.toNat ≤ 251) :
    takeEvent (.hostReq r) s =
      .next (sendStarted (buildCommand r.cmd (r.params.toList.take r.plen.toNat)) s) := by
  obtain ⟨-, -, hsend, -⟩ := decodeHost_of_opSel r
  rw [takeEvent, hsend hsel, exec_send_idle _ _ _ hs, if_pos (requestAccepted_iff.mpr ⟨hid, hfit⟩),
    requestFrame, requestParams, List.take_take, min_self, sendStarted]

/-- SEND and as many `TxAccept` events as its frame has bytes hand over the frame (R122 to R124). -/
theorem takeEvents_send {s : State} {r : HostReq} (hs : s.fsm = .idle) (hsel : r.opSel = 2#3)
    (hid : (cmdOfByte r.cmd).isSome = true) (hfit : r.plen.toNat ≤ 251) :
    takeEvents (.hostReq r :: List.replicate (4 + r.plen.toNat) .txAccept) s =
      .next (frameSent (buildCommand r.cmd (r.params.toList.take r.plen.toNat))
        (sendStarted (buildCommand r.cmd (r.params.toList.take r.plen.toNat)) s)) := by
  have hlen : (buildCommand r.cmd (r.params.toList.take r.plen.toNat)).length =
      4 + r.plen.toNat := by
    rw [length_buildCommand, List.length_take, Vector.length_toList]
    omega
  rw [takeEvents, takeEvent_send hs hsel hid hfit, andThen_next, takeEvents_txAccepts, ← hlen]
  exact takeTxAccepts_whole rfl (.inl rfl) rfl (by omega)
    (visibleT_loadFrame _ (acceptOp .send s) (by rw [hlen, Config.bufSize]; omega))

/-- RECV and the bytes of a built frame report the frame's id and parameters (R135 to R141). -/
theorem takeEvents_recv {s : State} {q : HostReq} {id : Byte} {P : List Byte} (hs : s.fsm = .idle)
    (hsel : q.opSel = 3#3) (hid : (cmdOfByte id).isSome = true) (hP : P.length ≤ 251) :
    takeEvents (.hostReq q :: (buildCommand id P).map .rxByte) s =
      .next (emit (.recvDone id P) (recordResponse id (responseStored (requestLen P.length) id P
        { hideReceived (acceptOp .recv s) with fsm := .rHdr }))) := by
  obtain ⟨-, -, -, hrecv, -⟩ := decodeHost_of_opSel q
  have hframed := responseFramed_requestLen hP
  rw [takeEvents, takeEvent, hrecv hsel, exec_recv_idle hs, andThen_next, takeEvents_rxBytes,
    buildCommand_eq_encodeResponse, takeRxBytes_legalResponse rfl hframed hid,
    finishResponse_recv rfl hframed]

/-- Settles O50: the parser and the receiver accept a built frame for the same reason, that it is a
legal response frame (R127). -/
theorem roundTripOfCommandFrames : Obligations.RoundTripOfCommandFrames := by
  refine ⟨fun id P hid hP => ⟨parseFrame_buildCommand hid hP, getLast?_buildCommand id P⟩,
    fun s r q hs hsend hrecv hid hfit => ?_⟩
  have hparams : (r.params.toList.take r.plen.toNat).length ≤ 251 := by
    rw [List.length_take]
    omega
  have hreceived := takeEvents_recv
    (s := frameSent (buildCommand r.cmd (r.params.toList.take r.plen.toNat))
      (sendStarted (buildCommand r.cmd (r.params.toList.take r.plen.toNat)) s))
    rfl hrecv hid hparams
  refine ⟨_, Eq.trans ?_ hreceived, ?_, rfl, rfl⟩
  · rw [List.append_assoc, takeEvents_append, List.singleton_append, List.singleton_append,
      takeEvents_send hs hsend hid hfit, andThen_next]
  · simp [responseStored, frameSent, sendStarted]

end Sys2Proof.Machine

/-! PROOF. The response receiver (43_command_receive.md): the bytes that end a receive with an error,
each step of rules R136 to R141, and the response rows as runs of those steps. -/

namespace Sys2Proof.Machine

open Sys2Proof.Safety

/-! ## One byte -/

/-- R136, the byte is not the header byte. -/
theorem takeRxByte_badHeader {s : State} {b : Byte} (h : s.fsm = .rHdr) (hb : b ≠ Config.cmdHdr) :
    takeRxByte b s = .next (raiseError .invalidHeader false (consume b s)) :=
  (takeRxByte_rHdr b h).trans ((receiveHeader_eq_next _ _ _).mpr (.inr ⟨hb, rfl⟩))

/-- R137, a length below 4. -/
theorem takeRxByte_badLength {s : State} {b : Byte} (h : s.fsm = .rLen)
    (hb : b.toNat < Config.lenMin) :
    takeRxByte b s = .next (raiseError .invalidLength false (consume b s)) :=
  (takeRxByte_rLen b h).trans ((receiveLength_eq_next _ _ _).mpr (.inr ⟨hb, rfl⟩))

/-- Why a complete response is rejected, the id before the checksum (R140). -/
inductive Rejects (id computed received : Byte) : ErrCode → Prop
  | unknownCommand (hid : cmdOfByte id = none) : Rejects id computed received .unknownCommand
  | badChecksum (hid : (cmdOfByte id).isSome = true) (hsum : computed ≠ received) :
      Rejects id computed received .invalidChecksum

/-- A rejected response leaves the session open (R180). -/
theorem Rejects.afterError_eq {id computed received : Byte} {e : ErrCode}
    (h : Rejects id computed received e) : afterError e = .idle := by
  cases h <;> rfl

/-- R139, R140: the checksum byte of a rejected response is stored, and the error is raised. -/
theorem takeRxByte_rejected {s : State} {b id : Byte} {e : ErrCode} (h : s.fsm = .rCsum)
    (hc : s.cnt.toNat < Config.bufSize) (hid : s.x.read 2 = some id) (hr : Rejects id s.acc b e) :
    takeRxByte b s = .next (raiseError e false { consume b s with x := s.x.write s.cnt.toNat b }) := by
  refine (takeRxByte_rCsum b h).trans ((receiveChecksum_eq_next _ _ _).mpr ⟨hc, id, hid, ?_⟩)
  cases hr with
  | unknownCommand hnone => exact .inl ⟨by simp [frameVerdict, hnone], rfl⟩
  | badChecksum hknown hsum =>
    exact .inr (.inl ⟨by simp [frameVerdict, Option.isSome_iff_ne_none.mp hknown, hsum], rfl⟩)

/-- Settles O37. -/
theorem responseHeaderByte : Obligations.ResponseHeaderByte := by
  refine fun s hs => ⟨⟨_, takeRxByte_header hs, holdsByte_write _ _ _⟩, fun b hb => ?_⟩
  have hbad := takeRxByte_badHeader hs hb
  have hrx : s.fsm.receiving = true := by rw [hs]; rfl
  refine ⟨hbad, fun more => ?_⟩
  rw [takeRxBytes_cons b more s hrx, takeRxBytes_singleton b s hrx, hbad, andThen_next,
    takeRxBytes_not_receiving more _ rfl]

/-- Settles O38. -/
theorem responseLengthByte : Obligations.ResponseLengthByte :=
  fun _ _ hs => ⟨fun hb => ⟨_, takeRxByte_length hs hb, holdsByte_write _ _ _⟩,
    fun hb => takeRxByte_badLength hs hb⟩

/-- Settles O39. -/
theorem responsePayloadByte : Obligations.ResponsePayloadByte := by
  intro s b hs _ hle
  have hlen := s.len.isLt
  exact ⟨_, takeRxByte_payload b hs (by rw [Config.bufSize]; omega), holdsByte_write _ _ _⟩

/-- The byte a response's length byte counts last has a place in `x` (R40). -/
theorem cnt_lt_bufSize_of_last {s : State} (hc : s.cnt.toNat + 1 = s.len.toNat) :
    s.cnt.toNat < Config.bufSize := by
  have hlen := s.len.isLt
  rw [Config.bufSize]
  omega

/-- Settles O40. -/
theorem responseVerdict : Obligations.ResponseVerdict := by
  intro s b id hs hc hid
  have hroom := cnt_lt_bufSize_of_last hc
  refine ⟨_, holdsByte_write _ _ _, fun hnone => ?_, fun hknown hsum => ?_, fun hknown hsum => ?_⟩
  · exact takeRxByte_rejected hs hroom hid (.unknownCommand hnone)
  · exact takeRxByte_rejected hs hroom hid
      (.badChecksum (Option.isSome_iff_ne_none.mpr hknown) hsum)
  · exact takeRxByte_goodVerdict hs hroom hid
      (frameVerdict_eq_good.mpr ⟨Option.isSome_iff_ne_none.mpr hknown, hsum⟩)

/-- The data bytes of a response lie before its checksum byte, so storing that byte leaves them. -/
theorem readBytes_data_store {s : State} (b : Byte) (hc : s.cnt.toNat + 1 = s.len.toNat) :
    (s.x.write s.cnt.toNat b).readBytes 3 (s.len.toNat - 4) = s.x.readBytes 3 (s.len.toNat - 4) := by
  by_cases h4 : 4 ≤ s.len.toNat
  · exact Memory.readBytes_write_behind _ _ (by omega)
  · rw [Nat.sub_eq_zero_of_le (by omega)]
    rfl

/-- Settles O41. -/
theorem recvSucceeds : Obligations.RecvSucceeds := by
  intro s b id data hs hop hc hid hknown hsum hdata
  refine ⟨_, ?_, holdsByte_write _ _ _⟩
  rw [takeEvent, takeRxByte_goodVerdict hs (cnt_lt_bufSize_of_last hc) hid
    (frameVerdict_eq_good.mpr ⟨hknown, hsum⟩), finishResponse_eq_next]
  exact .inl ⟨hop, (finishRecv_eq_next _ _ _).mpr
    ⟨data, (readBytes_data_store b hc).trans hdata, rfl⟩⟩

/-! ## A whole frame -/

/-- Every row a response frame belongs to carries all of its bytes (R63, R79). -/
theorem encode_of_mem_responseRows {len id : Byte} {data : List Byte} {csum : Byte} {i : Instr}
    (h : i ∈ responseRows len id data csum) : encode i = .rx (encodeResponse len id data csum) := by
  simp only [responseRows, List.mem_append, List.mem_singleton, List.mem_ite_nil_right] at h
  obtain ((rfl | ⟨rfl, rfl⟩) | ⟨rfl, rfl⟩) | ⟨rfl, rfl⟩ := h <;> rfl

/-- A block that has stored nothing takes all bytes of a response row (log entry 7). -/
theorem exec_responseRow {s : State} {len id : Byte} {data : List Byte} {csum : Byte} {i : Instr}
    (h : i ∈ responseRows len id data csum) (hcnt : s.cnt = 0#8) :
    exec i s = takeRxBytes (encodeResponse len id data csum) s := by
  rw [exec_of_encode_rx i _ s (encode_of_mem_responseRows h), receiveFrame, bytesToCome_start _ s hcnt]

/-- Settles O43. -/
theorem legalResponseCompletesRecv : Obligations.LegalResponseCompletesRecv := by
  intro s len id data i hrow hframed hid hs hop hcnt
  refine ⟨_, ?_, holdsFrame_writeBytes s.x _⟩
  rw [exec_responseRow hrow hcnt, takeRxBytes_legalResponse hs hframed hid,
    finishResponse_recv hop hframed]
  rfl

/-- What `awaitingChecksum` says of the byte to come: its place is behind the bytes stored. -/
theorem cnt_awaitingChecksum {len : Byte} {data : List Byte} (id : Byte) (s : State)
    (hframed : responseFramed len data = true) :
    (awaitingChecksum len id data s).cnt.toNat = (responseBody len id data).length := by
  obtain ⟨-, hlen⟩ := responseFramed_iff.mp hframed
  simp only [awaitingChecksum, responseBody, List.length_append, List.length_cons, List.length_nil]
  bv_omega

/-- A rejected response at its last byte: all its bytes are stored (R139). -/
def responseRejected (len id : Byte) (data : List Byte) (csum : Byte) (e : ErrCode) (s : State) :
    State :=
  raiseError e false { awaitingChecksum len id data s with
    x := s.x.writeBytes 0 (encodeResponse len id data csum),
    rxLog := s.rxLog ++ encodeResponse len id data csum }

/-- A response whose id or checksum is bad is taken whole before it is rejected (R136 to R140). -/
theorem takeRxBytes_rejectedResponse {s : State} {len id csum : Byte} {data : List Byte} {e : ErrCode}
    (h : s.fsm = .rHdr) (hframed : responseFramed len data = true)
    (hr : Rejects id (responseChecksum len id data) csum e) :
    takeRxBytes (encodeResponse len id data csum) s =
      .next (responseRejected len id data csum e s) := by
  have hcnt := cnt_awaitingChecksum id s hframed
  have hroom : (awaitingChecksum len id data s).cnt.toNat < Config.bufSize := by
    obtain ⟨-, hlen⟩ := responseFramed_iff.mp hframed
    have hmax := len.isLt
    rw [hcnt, Config.bufSize]
    simp [responseBody]
    omega
  have hid : (awaitingChecksum len id data s).x.read 2 = some id := by
    simp [awaitingChecksum, Memory.read_writeBytes, responseBody]
  have hstore : (awaitingChecksum len id data s).x.write
      (awaitingChecksum len id data s).cnt.toNat csum =
        s.x.writeBytes 0 (encodeResponse len id data csum) := by
    rw [hcnt, encodeResponse, ← responseBody, Memory.writeBytes_append, Nat.zero_add]
    rfl
  rw [encodeResponse, ← responseBody, takeRxBytes_append, takeRxBytes_responseBody id h hframed,
    andThen_next, takeRxBytes_singleton _ _ rfl, takeRxByte_rejected rfl hroom hid hr, hstore]
  simp [responseRejected, awaitingChecksum, consume, encodeResponse, responseBody]

/-- Settles O44. -/
theorem badResponseIsRejectedWhole : Obligations.BadResponseIsRejectedWhole := by
  intro s len id data csum i e hrow hframed hwhy hs hcnt
  have hr : Rejects id (responseChecksum len id data) csum e := by
    obtain ⟨hnone, rfl⟩ | ⟨hknown, hsum, rfl⟩ := hwhy
    · exact .unknownCommand hnone
    · exact .badChecksum hknown hsum.symm
  refine ⟨_, ?_, holdsFrame_writeBytes s.x _⟩
  rw [exec_responseRow hrow hcnt, takeRxBytes_rejectedResponse hs hframed hr, responseRejected,
    raiseError, hr.afterError_eq]
  rfl

end Sys2Proof.Machine

/-! PROOF. The receiver and the parser on any bytes (43_command_receive.md rules R144, R145): bytes are
taken apart as the receiver takes them apart, and in each case the parser's verdict, the bytes consumed
and the end of the run are read off. -/

namespace Sys2Proof.Machine

open Sys2Proof.Safety

/-! ## The bytes a receiver can meet -/

/-- Bytes as a receiver takes them apart: it fails at the header byte or the length byte, runs out of
bytes, or has a whole frame, with bytes behind it (R136 to R138). -/
inductive ReceiverInput : List Byte → Prop
  | nothing : ReceiverInput []
  | badHeader {b : Byte} (more : List Byte) (hb : b ≠ Config.cmdHdr) : ReceiverInput (b :: more)
  | header : ReceiverInput [Config.cmdHdr]
  | badLength {l : Byte} (more : List Byte) (hl : l.toNat < Config.lenMin) :
      ReceiverInput (Config.cmdHdr :: l :: more)
  | truncated {l : Byte} {rest : List Byte} (hl : Config.lenMin ≤ l.toNat)
      (hshort : rest.length + 2 < l.toNat) : ReceiverInput (Config.cmdHdr :: l :: rest)
  | framed {len : Byte} {data : List Byte} (id csum : Byte) (more : List Byte)
      (hframed : responseFramed len data = true) :
      ReceiverInput (encodeResponse len id data csum ++ more)

/-- Bytes at least as many as their length byte counts begin with a response frame (R63). -/
theorem exists_encodeResponse_append {len : Byte} {rest : List Byte} (hl : Config.lenMin ≤ len.toNat)
    (hlong : len.toNat ≤ rest.length + 2) :
    ∃ id data csum more, responseFramed len data = true ∧
      Config.cmdHdr :: len :: rest = encodeResponse len id data csum ++ more := by
  rw [Config.lenMin] at hl
  obtain ⟨id, rest, rfl⟩ : ∃ id tail, rest = id :: tail :=
    List.exists_cons_of_length_pos (by omega)
  rw [List.length_cons] at hlong
  obtain ⟨csum, more, hdrop⟩ : ∃ csum more, rest.drop (len.toNat - 4) = csum :: more :=
    List.exists_cons_of_length_pos (by rw [List.length_drop]; omega)
  refine ⟨id, rest.take (len.toNat - 4), csum, more, responseFramed_iff.mpr ⟨hl, ?_⟩, ?_⟩
  · rw [List.length_take]
    omega
  · rw [encodeResponse, List.append_assoc, List.append_assoc, List.singleton_append, ← hdrop,
      List.take_append_drop]
    rfl

theorem receiverInput (bytes : List Byte) : ReceiverInput bytes := by
  match bytes with
  | [] => exact .nothing
  | h :: rest =>
    by_cases hh : h = Config.cmdHdr
    · subst hh
      match rest with
      | [] => exact .header
      | l :: rest =>
        by_cases hl : Config.lenMin ≤ l.toNat
        · by_cases hlong : l.toNat ≤ rest.length + 2
          · obtain ⟨id, data, csum, more, hframed, heq⟩ := exists_encodeResponse_append hl hlong
            exact heq ▸ .framed id csum more hframed
          · exact .truncated hl (Nat.not_le.mp hlong)
        · exact .badLength rest (Nat.not_le.mp hl)
    · exact .badHeader rest hh

/-! ## The parser's verdict -/

theorem parseFrame_badHeader {b : Byte} (more : List Byte) (hb : b ≠ Config.cmdHdr) :
    parseFrame (b :: more) = .error .invalidHeader := by
  simp [parseFrame, hb]

theorem parseFrame_badLength {l : Byte} (more : List Byte) (hl : l.toNat < Config.lenMin) :
    parseFrame (Config.cmdHdr :: l :: more) = .error .invalidLength := by
  simp [parseFrame, hl]

theorem parseFrame_truncated {l : Byte} {rest : List Byte} (hl : Config.lenMin ≤ l.toNat)
    (hshort : rest.length + 2 < l.toNat) :
    parseFrame (Config.cmdHdr :: l :: rest) = .error .serialTimeout := by
  simp [parseFrame, Nat.not_lt.mpr hl, hshort]

/-- On a response frame the parser looks at the id, then at the checksum, and at no byte behind the
frame (R140, R144). -/
theorem parseFrame_framed {len : Byte} {data : List Byte} (id csum : Byte) (more : List Byte)
    (hframed : responseFramed len data = true) :
    parseFrame (encodeResponse len id data csum ++ more) =
      if (cmdOfByte id).isNone then .error .unknownCommand
      else if responseChecksum len id data ≠ csum then .error .invalidChecksum
      else .ok (id, data) := by
  obtain ⟨hmin, hlen⟩ := responseFramed_iff.mp hframed
  have hbody : (responseBody len id data).length = len.toNat - 1 := by
    simp [responseBody]
    omega
  have hsplit : encodeResponse len id data csum ++ more =
      responseBody len id data ++ (csum :: more) := by
    simp [encodeResponse, responseBody]
  have hall : ¬ (responseBody len id data ++ (csum :: more)).length < len.toNat := by
    rw [List.length_append, hbody, List.length_cons]
    omega
  have hsum : checksum ((responseBody len id data ++ (csum :: more)).take (len.toNat - 1)) =
      responseChecksum len id data := by
    rw [← hbody, List.take_left, responseChecksum]
  have hlast : (responseBody len id data ++ (csum :: more)).getD (len.toNat - 1) 0#8 = csum := by
    rw [← hbody]
    simp
  have hdata : ((responseBody len id data ++ (csum :: more)).drop 3).take (len.toNat - 4) = data := by
    rw [← hlen, Nat.add_sub_cancel]
    simp [responseBody]
  obtain ⟨rest, hcons⟩ : ∃ rest, responseBody len id data ++ (csum :: more) =
      Config.cmdHdr :: len :: id :: rest := ⟨_, rfl⟩
  have hid : (Config.cmdHdr :: len :: id :: rest).getD 2 0#8 = id := rfl
  rw [hsplit]
  rw [hcons] at hall hsum hlast hdata ⊢
  simp only [parseFrame, hid, hsum, hlast, hdata, hall, Nat.not_lt.mpr hmin, ne_self_iff_false,
    if_false]

theorem parseFrame_rejected {len id csum : Byte} {data : List Byte} {e : ErrCode} (more : List Byte)
    (hframed : responseFramed len data = true)
    (hr : Rejects id (responseChecksum len id data) csum e) :
    parseFrame (encodeResponse len id data csum ++ more) = .error e := by
  rw [parseFrame_framed id csum more hframed]
  cases hr with
  | unknownCommand hnone => simp [hnone]
  | badChecksum hknown hsum => simp [Option.isSome_iff_ne_none.mp hknown, hsum]

theorem parseFrame_legal {len id : Byte} {data : List Byte} (more : List Byte)
    (hframed : responseFramed len data = true) (hid : (cmdOfByte id).isSome = true) :
    parseFrame (encodeResponse len id data (responseChecksum len id data) ++ more) =
      .ok (id, data) := by
  rw [parseFrame_framed _ _ more hframed]
  simp [Option.isSome_iff_ne_none.mp hid]

/-- A complete response is rejected or legal (R140). -/
theorem rejects_or_legal (len id csum : Byte) (data : List Byte) :
    (∃ e, Rejects id (responseChecksum len id data) csum e) ∨
      ((cmdOfByte id).isSome = true ∧ csum = responseChecksum len id data) := by
  cases hid : cmdOfByte id with
  | none => exact .inl ⟨_, .unknownCommand hid⟩
  | some c =>
    by_cases hsum : responseChecksum len id data = csum
    · exact .inr ⟨rfl, hsum.symm⟩
    · exact .inl ⟨_, .badChecksum (by rw [hid]; rfl) hsum⟩

/-! ## The bytes consumed -/

/-- The first `bytesConsumed` of the bytes offered, and no others, are consumed (R145). -/
def ConsumesItsBytes (bytes : List Byte) (s u : State) : Prop :=
  bytesConsumed bytes ≤ bytes.length ∧ u.rxLog = s.rxLog ++ bytes.take (bytesConsumed bytes)

/-- A run that consumed the bytes of a frame and left those behind it. -/
theorem consumesItsBytes_of_append {frame more : List Byte} {s u : State}
    (hn : bytesConsumed (frame ++ more) = frame.length) (hlog : u.rxLog = s.rxLog ++ frame) :
    ConsumesItsBytes (frame ++ more) s u := by
  rw [ConsumesItsBytes, hn, List.take_left]
  exact ⟨by simp, hlog⟩

/-- A run that ran out of bytes consumed them all. -/
theorem consumesItsBytes_of_timeout {bytes : List Byte} {s u : State}
    (hp : parseFrame bytes = .error .serialTimeout) (hlog : u.rxLog = s.rxLog ++ bytes) :
    ConsumesItsBytes bytes s u := by
  rw [ConsumesItsBytes, bytesConsumed, hp, List.take_length]
  exact ⟨le_rfl, hlog⟩

/-- A frame that is legal, or rejected as a whole, is consumed as a whole. -/
theorem bytesConsumed_framed {len : Byte} {data : List Byte} (id csum : Byte) (more : List Byte)
    (hframed : responseFramed len data = true) :
    bytesConsumed (encodeResponse len id data csum ++ more) =
      (encodeResponse len id data csum).length := by
  obtain ⟨-, hlen⟩ := responseFramed_iff.mp hframed
  have hcount : ((encodeResponse len id data csum ++ more).getD 1 0#8).toNat =
      (encodeResponse len id data csum).length := by
    simp [encodeResponse]
    omega
  rw [← hcount, bytesConsumed]
  obtain ⟨e, hr⟩ | ⟨hid, rfl⟩ := rejects_or_legal len id csum data
  · rw [parseFrame_rejected more hframed hr]
    cases hr <;> rfl
  · rw [parseFrame_legal more hframed hid]

/-! ## The end of the run -/

/-- Where a RECV fed with bytes ends, by the parser's verdict on them: it still waits, it is over with
the error, or it is over with the response (R144, R145). -/
inductive RecvEnd (bytes : List Byte) (s : State) : State → Prop
  | waiting {u : State} (hp : parseFrame bytes = .error .serialTimeout)
      (hrx : u.fsm.receiving = true) (hlog : ConsumesItsBytes bytes s u) (hout : u.out = s.out) :
      RecvEnd bytes s u
  | failed {e : ErrCode} {u : State} (hp : parseFrame bytes = .error e) (hidle : afterError e = .idle)
      (hlog : ConsumesItsBytes bytes s u) (hout : u.out = s.out) :
      RecvEnd bytes s (raiseError e false u)
  | done {id : Byte} {data : List Byte} {u : State} (hp : parseFrame bytes = .ok (id, data))
      (hlog : ConsumesItsBytes bytes s u) (hout : u.out = s.out) (herr : u.err = s.err) :
      RecvEnd bytes s (emit (.recvDone id data) (recordResponse id u))

theorem RecvEnd.consumes {bytes : List Byte} {s u : State} (h : RecvEnd bytes s u) :
    ConsumesItsBytes bytes s u := by
  cases h with
  | waiting _ _ hlog | failed _ _ hlog | done _ hlog => exact hlog

/-- A header byte that is not 5A ends the receive at once (R136). -/
theorem recvEnd_badHeader {s : State} {b : Byte} (more : List Byte) (h : s.fsm = .rHdr)
    (hb : b ≠ Config.cmdHdr) : ∃ u, takeRxBytes (b :: more) s = .next u ∧ RecvEnd (b :: more) s u := by
  have hp := parseFrame_badHeader more hb
  refine ⟨raiseError .invalidHeader false (consume b s), ?_, .failed hp rfl ?_ rfl⟩
  · rw [takeRxBytes_cons b more s (by rw [h]; rfl), takeRxByte_badHeader h hb, andThen_next,
      takeRxBytes_not_receiving more _ rfl]
  · exact consumesItsBytes_of_append (frame := [b])
      (by rw [bytesConsumed, List.singleton_append, hp]; rfl) rfl

/-- A header byte leaves the receiver waiting for the length byte (R136). -/
theorem takeRxBytes_header {s : State} (rest : List Byte) (h : s.fsm = .rHdr) :
    takeRxBytes (Config.cmdHdr :: rest) s = takeRxBytes rest { consume Config.cmdHdr s with
      x := s.x.write 0 Config.cmdHdr, cnt := 1#8, acc := Config.cmdHdr, fsm := .rLen } := by
  rw [takeRxBytes_cons _ rest s (by rw [h]; rfl), takeRxByte_header h, andThen_next]

/-- A length byte below 4 ends the receive (R137). -/
theorem recvEnd_badLength {s : State} {l : Byte} (more : List Byte) (h : s.fsm = .rHdr)
    (hl : l.toNat < Config.lenMin) :
    ∃ u, takeRxBytes (Config.cmdHdr :: l :: more) s = .next u ∧
      RecvEnd (Config.cmdHdr :: l :: more) s u := by
  have hp := parseFrame_badLength more hl
  rw [takeRxBytes_header _ h, takeRxBytes_cons l more _ rfl, takeRxByte_badLength rfl hl,
    andThen_next, takeRxBytes_not_receiving more _ rfl]
  exact ⟨_, rfl, .failed hp rfl (consumesItsBytes_of_append (frame := [Config.cmdHdr, l])
    (by rw [bytesConsumed, List.cons_append, List.singleton_append, hp]; rfl) (by simp)) rfl⟩

/-- Fewer bytes than the length byte counts leave the receiver waiting (R138). -/
theorem recvEnd_truncated {s : State} {l : Byte} {rest : List Byte} (h : s.fsm = .rHdr)
    (hl : Config.lenMin ≤ l.toNat) (hshort : rest.length + 2 < l.toNat) :
    ∃ u, takeRxBytes (Config.cmdHdr :: l :: rest) s = .next u ∧
      RecvEnd (Config.cmdHdr :: l :: rest) s u := by
  have hp := parseFrame_truncated hl hshort
  rw [Config.lenMin] at hl
  rw [takeRxBytes_header _ h, takeRxBytes_cons l rest _ rfl, takeRxByte_length rfl hl, andThen_next,
    takeRxBytes_payload rest rfl (by simpa using hl) (by simp; omega)]
  refine ⟨_, rfl, .waiting hp ?_ (consumesItsBytes_of_timeout hp (by simp)) rfl⟩
  simp only
  split <;> rfl

/-- A whole frame ends the receive, with an error or with its id and data (R139 to R141). -/
theorem recvEnd_framed {s : State} {len : Byte} {data : List Byte} (id csum : Byte)
    (more : List Byte) (h : s.fsm = .rHdr) (hop : s.op = .recv)
    (hframed : responseFramed len data = true) :
    ∃ u, takeRxBytes (encodeResponse len id data csum ++ more) s = .next u ∧
      RecvEnd (encodeResponse len id data csum ++ more) s u := by
  have hn := bytesConsumed_framed id csum more hframed
  rw [takeRxBytes_append]
  obtain ⟨e, hr⟩ | ⟨hid, rfl⟩ := rejects_or_legal len id csum data
  · have hidle := hr.afterError_eq
    refine ⟨responseRejected len id data csum e s, ?_,
      .failed (parseFrame_rejected more hframed hr) hidle (consumesItsBytes_of_append hn rfl) rfl⟩
    rw [takeRxBytes_rejectedResponse h hframed hr, andThen_next, takeRxBytes_not_receiving more _
      (by rw [responseRejected, raiseError_fsm, hidle]; rfl)]
  · refine ⟨_, ?_, .done (parseFrame_legal more hframed hid) (consumesItsBytes_of_append hn
      (u := responseStored len id data s) rfl) rfl rfl⟩
    rw [takeRxBytes_legalResponse h hframed hid, finishResponse_recv hop hframed, andThen_next,
      takeRxBytes_not_receiving more _ rfl]

/-- A RECV fed with any bytes ends as the parser says. -/
theorem recvEnd_takeRxBytes (bytes : List Byte) {s : State} (h : s.fsm = .rHdr) (hop : s.op = .recv) :
    ∃ u, takeRxBytes bytes s = .next u ∧ RecvEnd bytes s u := by
  have hrx : s.fsm.receiving = true := by rw [h]; rfl
  cases receiverInput bytes with
  | nothing =>
    exact ⟨s, rfl, .waiting rfl hrx (consumesItsBytes_of_timeout rfl (by simp)) rfl⟩
  | badHeader more hb => exact recvEnd_badHeader more h hb
  | header =>
    exact ⟨_, takeRxBytes_header [] h, .waiting rfl rfl (consumesItsBytes_of_timeout rfl rfl) rfl⟩
  | badLength more hl => exact recvEnd_badLength more h hl
  | truncated hl hshort => exact recvEnd_truncated h hl hshort
  | framed id csum more hframed => exact recvEnd_framed id csum more h hop hframed

/-- Settles O46. -/
theorem receiverConsumesNoMore : Obligations.ReceiverConsumesNoMore := by
  intro s t bytes hs _ hop ht
  obtain ⟨u, hu, hend⟩ := recvEnd_takeRxBytes bytes hs hop
  obtain rfl : t = u := (next_eq_next u t).mp (hu.symm.trans ht)
  exact hend.consumes

/-- Settles O45: the timeout finds the operation waiting, and ends it as the parser says of bytes that
run out, or finds it over. -/
theorem parserAgreesWithReceiver : Obligations.ParserAgreesWithReceiver := by
  intro s r bytes hs hsel
  obtain ⟨-, -, -, hrecv, -⟩ := decodeHost_of_opSel r
  have hstart := exec_recv_idle hs
  obtain ⟨u, hu, hend⟩ := recvEnd_takeRxBytes bytes
    (s := { hideReceived (acceptOp .recv s) with fsm := .rHdr }) rfl rfl
  rw [← hrecv hsel] at hstart
  cases hend with
  | waiting hp hrx _ hout =>
    refine ⟨_, u, _, hstart, hu, (takeRxTimeout_eq_next _ _).mpr (.inl ⟨hrx, rfl⟩), rfl, ?_⟩
    rw [hp]
    exact ⟨by rw [raiseError_out, hout]; rfl, rfl, rfl⟩
  | @failed e u hp hidle _ hout =>
    refine ⟨_, _, _, hstart, hu, (takeRxTimeout_eq_next _ _).mpr (.inr ⟨?_, rfl⟩), hidle, ?_⟩
    · rw [raiseError_fsm, hidle]
      rfl
    · rw [hp]
      exact ⟨by rw [raiseError_out, hout]; rfl, rfl, rfl⟩
  | done hp _ hout herr =>
    refine ⟨_, _, _, hstart, hu, (takeRxTimeout_eq_next _ _).mpr (.inr ⟨rfl, rfl⟩), rfl, ?_⟩
    rw [hp]
    exact ⟨by rw [emit_out, recordResponse_out, hout]; rfl, herr, rfl⟩

end Sys2Proof.Machine

/-! PROOF. SETFREQ and GETVER (44_highlevel_ops.md): accepting one loads its request (R156, R157), the
last byte of a request hands over to the receiver (R158), and the response received finishes the
operation if its id is that of the request (R159 to R161). -/

namespace Sys2Proof.Machine

open Sys2Proof.Safety

/-! ## Acceptance -/

/-- The state that accepting SETFREQ leads to (R156). -/
def setfreqStarted (freq : Half) (s : State) : State :=
  { loadFrame (buildCommand 0x03#8 (freqParams freq)) (hideReceived (acceptOp .setfreq s)) with
    reqId := 0x03#8, fsm := .cSend }

/-- The state that accepting GETVER leads to (R157). -/
def getverStarted (s : State) : State :=
  { loadFrame (buildCommand 0x01#8 []) (hideReceived (acceptOp .getver s)) with
    reqId := 0x01#8, verValid := false, fsm := .cSend }

theorem exec_setfreq_idle {s : State} (freq : Half) (hs : s.fsm = .idle) :
    exec (.setfreq freq) s = .next (setfreqStarted freq s) := by
  rw [exec, execSetfreq, onRequest_idle s _ hs, setfreqStarted, cmdByte]

theorem exec_getver_idle {s : State} (hs : s.fsm = .idle) :
    exec .getver s = .next (getverStarted s) := by
  rw [exec, execGetver, onRequest_idle s _ hs, getverStarted, cmdByte]

/-- A SETFREQ request of the host, as an event. -/
theorem takeEvent_setfreq {s : State} {r : HostReq} (hs : s.fsm = .idle) (hsel : r.opSel = 4#3) :
    takeEvent (.hostReq r) s = .next (setfreqStarted r.freq s) := by
  obtain ⟨-, -, -, -, hsetfreq, -⟩ := decodeHost_of_opSel r
  rw [takeEvent, hsetfreq hsel, exec_setfreq_idle _ hs]

/-- A GETVER request of the host, as an event. -/
theorem takeEvent_getver {s : State} {r : HostReq} (hs : s.fsm = .idle) (hsel : r.opSel = 5#3) :
    takeEvent (.hostReq r) s = .next (getverStarted s) := by
  obtain ⟨-, -, -, -, -, hgetver, -⟩ := decodeHost_of_opSel r
  rw [takeEvent, hgetver hsel, exec_getver_idle hs]

theorem visibleT_setfreqStarted (freq : Half) (s : State) :
    (setfreqStarted freq s).visibleT = some (buildCommand 0x03#8 (freqParams freq)) :=
  visibleT_loadFrame _ (hideReceived (acceptOp .setfreq s))
    (by simp [length_buildCommand, freqParams, Config.bufSize])

theorem visibleT_getverStarted (s : State) :
    (getverStarted s).visibleT = some (buildCommand 0x01#8 []) :=
  visibleT_loadFrame _ (hideReceived (acceptOp .getver s)) (by decide)

/-- The SampleFreq request byte by byte: its checksum is the fixed bytes' sum and the two of `freq`
(R65, R156). -/
theorem buildCommand_sampleFreq (freq : Half) :
    buildCommand 0x03#8 (freqParams freq) = [0x5A#8, 0x06#8, 0x03#8, freq.extractLsb' 0 8,
      freq.extractLsb' 8 8, 0x63#8 + freq.extractLsb' 0 8 + freq.extractLsb' 8 8] := by
  have hsum : checksum (requestBody 0x03#8 (freqParams freq)) =
      0x63#8 + freq.extractLsb' 0 8 + freq.extractLsb' 8 8 := by
    rw [requestBody, checksum_append, BitVec.add_assoc]
    simp [freqParams, checksum, lowByte, highByte, Config.cmdHdr, requestLen, Config.lenOverhead]
  rw [buildCommand, hsum]
  rfl

/-- The GetVersion request byte by byte (R65, R157). -/
theorem buildCommand_getVersion : buildCommand 0x01#8 [] = [0x5A#8, 0x04#8, 0x01#8, 0x5F#8] := by
  decide

/-- Settles O47: the buffer holds the loaded request, whose bytes are the literal ones. -/
theorem setfreqAndGetverAccepted : Obligations.SetfreqAndGetverAccepted := by
  refine fun s hs => ⟨fun freq => ⟨_, exec_setfreq_idle freq hs, ?_⟩, ⟨_, exec_getver_idle hs, ?_⟩⟩
  · rw [← buildCommand_sampleFreq]
    exact holdsFrame_writeBytes s.t _
  · rw [← buildCommand_getVersion]
    exact holdsFrame_writeBytes s.t _

/-! ## The end of a high-level operation -/

/-- R159: a response to another request. -/
theorem finishResponse_uncorrelated {s : State} {id : Byte} (hop : s.op = .setfreq ∨ s.op = .getver)
    (hne : id ≠ s.reqId) : finishResponse id s = .next (raiseError .unknownCommand true s) := by
  rw [finishResponse_eq_next]
  obtain hop | hop := hop
  · exact .inr (.inl ⟨hop, (correlate_eq_next _ _ _ _).mpr (.inl ⟨hne, rfl⟩)⟩)
  · exact .inr (.inr ⟨hop, (correlate_eq_next _ _ _ _).mpr (.inl ⟨hne, rfl⟩)⟩)

/-- R160. -/
theorem finishResponse_setfreq {s : State} {id : Byte} (hop : s.op = .setfreq) (hid : id = s.reqId) :
    finishResponse id s = .next (emit .freqDone (recordResponse id s)) :=
  (finishResponse_eq_next _ _ _).mpr
    (.inr (.inl ⟨hop, (correlate_eq_next _ _ _ _).mpr (.inr ⟨hid, rfl⟩)⟩))

/-- A GETVER whose response is correlated goes on to the version (R159, R161). -/
theorem finishResponse_getver {s : State} {id : Byte} (hop : s.op = .getver) (hid : id = s.reqId) :
    finishResponse id s = finishGetver id s := by
  rw [finishResponse, hop]
  exact if_neg (not_not_intro hid)

/-- What a version response records and reports (R161). -/
def versionRecorded (patch minor major id : Byte) (s : State) : State :=
  emit (.verDone patch minor major) { recordResponse id s with
    verPatch := patch, verMinor := minor, verMajor := major, verValid := true }

/-- R161, fewer than three data bytes. -/
theorem finishResponse_shortVersion {s : State} {id : Byte} (hop : s.op = .getver)
    (hid : id = s.reqId) (hlen : s.len.toNat < 7) :
    finishResponse id s = .next (raiseError .invalidLength false s) :=
  (finishResponse_getver hop hid).trans ((finishGetver_eq_next _ _ _).mpr (.inl ⟨hlen, rfl⟩))

/-- R161, the version is the first three data bytes. -/
theorem finishResponse_version {s : State} {id patch minor major : Byte} (hop : s.op = .getver)
    (hid : id = s.reqId) (hlen : 7 ≤ s.len.toNat)
    (hx : s.x.readBytes 3 3 = some [patch, minor, major]) :
    finishResponse id s = .next (versionRecorded patch minor major id s) := by
  obtain ⟨-, hread⟩ := (Memory.readBytes_eq_some _ _ _ _).mp hx
  exact (finishResponse_getver hop hid).trans ((finishGetver_eq_next _ _ _).mpr (.inr ⟨hlen,
    patch, minor, major, hread 0 (by decide), hread 1 (by decide), hread 2 (by decide), rfl⟩))

/-- Settles O42: the checksum byte of a good frame is stored behind the data, then the operation
finishes. -/
theorem highLevelOperationsFinish : Obligations.HighLevelOperationsFinish := by
  intro s b id hs hc hid hknown hsum
  have htake : takeEvent (.rxByte b) s = finishResponse id { consume b s with
      x := s.x.write s.cnt.toNat b, cnt := s.len } :=
    takeRxByte_goodVerdict hs (cnt_lt_bufSize_of_last hc) hid
      (frameVerdict_eq_good.mpr ⟨hknown, hsum⟩)
  refine ⟨_, holdsByte_write _ _ _, fun hop hne => ?_, fun hop hcorr => ?_,
    fun hop hcorr hlen => ?_, fun patch minor major hop hcorr hlen hx => ?_⟩ <;> rw [htake]
  · exact finishResponse_uncorrelated hop hne
  · exact finishResponse_setfreq hop hcorr
  · exact finishResponse_shortVersion hop hcorr hlen
  · have hstored : (s.x.write s.cnt.toNat b).readBytes 3 3 = some [patch, minor, major] :=
      (Memory.readBytes_write_behind _ _ (by omega)).trans hx
    exact finishResponse_version hop hcorr hlen hstored

/-! ## Whole cycles -/

/-- A stored response is the visible part of `x` (R28). -/
theorem visibleX_responseStored {len : Byte} {data : List Byte} (id : Byte) (s : State)
    (hframed : responseFramed len data = true) :
    (responseStored len id data s).visibleX =
      some (encodeResponse len id data (responseChecksum len id data)) := by
  obtain ⟨-, hlen⟩ := responseFramed_iff.mp hframed
  have hcnt : len.toNat = (encodeResponse len id data (responseChecksum len id data)).length := by
    simp [encodeResponse]
    omega
  rw [State.visibleX, responseStored, hcnt, Memory.readBytes_writeBytes]

/-- The three phases of a high-level operation (R155): the request it loads is handed over byte by
byte (R158), and a legal response to it is stored and finishes the operation. -/
theorem takeEvents_cycle {s u : State} {r : HostReq} {cmd len id : Byte} {params data : List Byte}
    (hstart : takeEvent (.hostReq r) s = .next u) (hf : u.fsm = .cSend)
    (hop : u.op = .setfreq ∨ u.op = .getver) (hidx : u.txIdx = 0#8)
    (hv : u.visibleT = some (buildCommand cmd params)) (hframed : responseFramed len data = true)
    (hid : (cmdOfByte id).isSome = true) :
    takeEvents ([.hostReq r] ++ List.replicate (buildCommand cmd params).length .txAccept ++
        (encodeResponse len id data (responseChecksum len id data)).map .rxByte) s =
      finishResponse id (responseStored len id data (frameSent (buildCommand cmd params) u)) := by
  have hpos : 0 < (buildCommand cmd params).length := by
    rw [length_buildCommand]
    omega
  have hwait : (frameSent (buildCommand cmd params) u).fsm = .rHdr := by
    rw [frameSent_of_request _ hop]
  rw [takeEvents_append, List.singleton_append, takeEvents, hstart, andThen_next,
    takeEvents_txAccepts, takeTxAccepts_whole hf (.inr hop) hidx hpos hv, andThen_next,
    takeEvents_rxBytes, takeRxBytes_legalResponse hwait hframed hid]

/-- Settles O48: SampleFreq is the id SETFREQ remembers, so the response finishes it. -/
theorem setfreqCycleSucceeds : Obligations.SetfreqCycleSucceeds := by
  intro s r len data hs hsel hframed
  have hv := visibleT_setfreqStarted r.freq s
  have hcycle := (takeEvents_cycle (id := 0x03#8) (takeEvent_setfreq hs hsel) rfl (.inl rfl) rfl hv
    hframed rfl).trans (finishResponse_setfreq rfl rfl)
  have hx := visibleX_responseStored 0x03#8
    (frameSent (buildCommand 0x03#8 (freqParams r.freq)) (setfreqStarted r.freq s)) hframed
  refine ⟨_, hcycle, ?_, rfl, rfl, rfl, rfl, rfl, rfl, rfl, hx, hv, rfl, rfl, rfl, rfl, rfl, rfl, rfl,
    rfl, rfl⟩
  rw [emit_out, recordResponse_out, responseStored, frameSent_of_request _ (.inl rfl)]
  rfl

/-- Settles O49: GetVersion is the id GETVER remembers, and the version is the response's first three
data bytes. -/
theorem getverCycleSucceeds : Obligations.GetverCycleSucceeds := by
  intro s r len patch minor major extra hs hsel hframed
  have hlen : 7 ≤ len.toNat := by
    obtain ⟨-, hlen⟩ := responseFramed_iff.mp hframed
    rw [List.length_append, List.length_cons, List.length_cons, List.length_singleton] at hlen
    omega
  have hx := visibleX_responseStored 0x01#8
    (frameSent (buildCommand 0x01#8 []) (getverStarted s)) hframed
  have hversion := readBytes_of_visibleX (start := 3) (n := 3) hx (Nat.le_of_succ_le hlen)
  have hcycle := (takeEvents_cycle (id := 0x01#8) (takeEvent_getver hs hsel) rfl (.inr rfl) rfl
    (visibleT_getverStarted s) hframed rfl).trans (finishResponse_version rfl rfl hlen hversion)
  refine ⟨_, hcycle, ?_, rfl, rfl, rfl, rfl, rfl, rfl, rfl, rfl, rfl, rfl, rfl, rfl, rfl, rfl, rfl, rfl⟩
  rw [versionRecorded, emit_out, recordResponse_out, responseStored,
    frameSent_of_request _ (.inr rfl), buildCommand_getVersion]
  exact List.append_assoc _ _ _

end Sys2Proof.Machine

/-! PROOF. Handshakes, Cancel, refused requests and hard errors (60_exceptions.md): under which
condition on the pins each event occurs (R190), what a request and Cancel do where no operation runs
(R178, R184, R185), and what a hard error of an operation writes (R180). -/

namespace Sys2Proof.Machine

open Sys2Proof.Safety

/-! ## Handshakes -/

theorem rxReady_iff (p : Pins) (f : Fsm) :
    rxReady p f = true ↔
      f.receiving = true ∧ p.rst = false ∧ p.cancel = false ∧ p.rxTimeout = false := by
  simp [rxReady, and_assoc]

theorem txValid_iff (p : Pins) (f : Fsm) :
    txValid p f = true ↔ f = .cSend ∧ p.rst = false ∧ p.cancel = false ∧ p.txFail = false := by
  simp [txValid, and_assoc]

theorem opReady_iff (p : Pins) (f : Fsm) :
    opReady p f = true ↔ f.busy = false ∧ p.rst = false ∧ p.cancel = false := by
  simp [opReady, and_assoc]

/-- The condition under which an event occurs at an edge (R190). -/
def OccursAt (p : Pins) (f : Fsm) : Event → Prop
  | .reset => p.rst = true
  | .cancel => p.cancel = true ∧ p.rst = false
  | .rxTimeout => p.rxTimeout = true ∧ f.receiving = true ∧ p.rst = false ∧ p.cancel = false
  | .txFail => p.txFail = true ∧ f = .cSend ∧ p.rst = false ∧ p.cancel = false
  | .rxByte b => p.rxValid = true ∧ rxReady p f = true ∧ b = p.rxData
  | .txAccept => txValid p f = true ∧ p.txReady = true
  | .hostReq r => p.opValid = true ∧ opReady p f = true ∧ r = p.req

/-- A block that waits for a byte or is not busy is not in `C_SEND`. -/
theorem ne_cSend {f : Fsm} (h : f.receiving = true ∨ f.busy = false) : f ≠ .cSend := by
  rintro rfl
  simp [Fsm.receiving, Fsm.busy] at h

theorem receiving_of_not_busy {f : Fsm} (h : f.busy = false) : f.receiving = false := by
  rw [← Bool.not_eq_true]
  exact fun hrx => by simp [busy_of_receiving hrx] at h

theorem occursAt_of_portEvent {p : Pins} {f : Fsm} {e : Event} (h : portEvent p f = some e) :
    OccursAt p f e := by
  rw [portEvent] at h
  split_ifs at h <;> cases h <;> simp_all [OccursAt]

/-- The conditions of R190 exclude each other, so the priority of `portEvent` passes over none. -/
theorem portEvent_of_occursAt {p : Pins} {f : Fsm} {e : Event} (h : OccursAt p f e) :
    portEvent p f = some e := by
  cases e with
  | reset => exact if_pos h
  | cancel =>
    obtain ⟨hcancel, hrst⟩ := h
    simp [portEvent, hcancel, hrst]
  | rxTimeout =>
    obtain ⟨htime, hf, hrst, hcancel⟩ := h
    simp [portEvent, htime, hf, hrst, hcancel]
  | txFail =>
    obtain ⟨hfail, rfl, hrst, hcancel⟩ := h
    simp [portEvent, hfail, hrst, hcancel, Fsm.receiving]
  | rxByte b =>
    obtain ⟨hvalid, hready, rfl⟩ := h
    obtain ⟨hf, hrst, hcancel, htime⟩ := (rxReady_iff p f).mp hready
    simp [portEvent, hvalid, hready, hrst, hcancel, htime, ne_cSend (.inl hf)]
  | txAccept =>
    obtain ⟨hvalid, hready⟩ := h
    obtain ⟨rfl, hrst, hcancel, hfail⟩ := (txValid_iff p f).mp hvalid
    simp [portEvent, hvalid, hready, hrst, hcancel, hfail, rxReady, Fsm.receiving]
  | hostReq r =>
    obtain ⟨hvalid, hready, rfl⟩ := h
    obtain ⟨hf, hrst, hcancel⟩ := (opReady_iff p f).mp hready
    simp [portEvent, hvalid, hready, hrst, hcancel, rxReady, txValid, receiving_of_not_busy hf,
      ne_cSend (.inr hf)]

theorem portEvent_eq_some_iff (p : Pins) (f : Fsm) (e : Event) :
    portEvent p f = some e ↔ OccursAt p f e :=
  ⟨occursAt_of_portEvent, portEvent_of_occursAt⟩

/-- Settles O11: each clause is a case of `OccursAt` or the equation of a ready signal. -/
theorem handshakesMakeEvents : Obligations.HandshakesMakeEvents := by
  refine ⟨fun p f => ?_, fun s p rest => step_of_no_event⟩
  simp only [portEvent_eq_some_iff, ← receiving_iff_mem, ← busy_eq_false_iff]
  exact ⟨.rfl, .rfl, .rfl, .rfl, rxReady_iff p f, fun _ => .rfl, txValid_iff p f, .rfl,
    opReady_iff p f, fun _ => .rfl⟩

/-! ## Requests that are refused -/

/-- Settles O34: BUILD and SEND by what their acceptance does otherwise. -/
theorem badRequestIsRefused : Obligations.BadRequestIsRefused := by
  intro s hs
  have hreserved := onRequest_idle s (fun s => .next (refuseRequest .badRequest s)) hs
  exact ⟨hreserved, hreserved, fun cmd plen params hbad =>
    ⟨(buildAccepted s cmd plen params hs).2 hbad, (sendAccepted s cmd plen params hs).2 hbad⟩⟩

/-- The transition table has no row that leaves `DEAD` but Reset's (R16, R185). -/
theorem tableFsm_dead {s : State} {e : Event} (hs : s.fsm = .dead) (he : e ≠ .reset) :
    tableFsm s e = .dead := by
  cases e <;> simp_all [tableFsm, Fsm.receiving]

/-- Settles O24. -/
theorem deadRefusesEveryRequest : Obligations.DeadRefusesEveryRequest := by
  intro s hs
  refine ⟨fun r => exec_host_dead (encode_decodeHost r) hs, ?_, fun p => ?_, fun b => ?_, ?_,
    fun e t h he => ?_, fun t h => ?_⟩
  · rw [takeEvent, cancelOperation_dead s hs]
  · simp [rxReady, txValid, hs, Fsm.receiving]
  · exact takeEvent_not_enabled (by rw [hs]; rfl)
  · exact takeEvent_not_enabled (by rw [hs]; rfl)
  · rw [(transition_of_takeEvent h).fsm_eq, tableFsm_dead hs he]
  · exact (transition_of_takeEvent h).fsm_eq

/-! ## Cancel -/

theorem receiving_of_telemetry {f : Fsm} (h : f ∈ [Fsm.tSeek0, .tSeek1, .tRead]) :
    f.receiving = true :=
  (receiving_iff_mem f).mpr (List.mem_of_mem_take (i := 3) h)

/-- A state of the telemetry decoder is left only by Cancel, by Reset and by a timeout: a received
byte stays among them and every other event is not enabled there (R110). -/
theorem Transition.leaves_telemetry {e : Event} {s t : State} (h : Transition s e t)
    (hs : s.fsm ∈ [Fsm.tSeek0, .tSeek1, .tRead]) (ht : t.fsm ∉ [Fsm.tSeek0, .tSeek1, .tRead]) :
    e = .cancel ∨ e = .reset ∨ ∃ c k, t.out = s.out ++ [.res (.error c k)] := by
  cases h with
  | reset => exact .inr (.inl rfl)
  | cancelled => exact .inl rfl
  | timedOut => exact .inr (.inr ⟨_, _, rfl⟩)
  | ignored => exact absurd hs ht
  | received _ h =>
    rw [h.fsm_eq] at ht
    exact absurd (tableFsm_telemetry _ hs) ht
  | refusedDead _ hf | refused _ hf | accepted hf | sentByte _ hf | sentFrame _ hf
    | sentRequest _ hf | sendFailed hf => simp [hf] at hs

/-- Settles O20. -/
theorem cancelEndsTheOperation : Obligations.CancelEndsTheOperation := by
  refine ⟨fun s hs => ?_, fun s hidle hdead => ?_, fun s t e hs h =>
    (transition_of_takeEvent h).leaves_telemetry hs⟩
  · rw [takeEvent, cancelOperation_not_busy ((busy_eq_false_iff s.fsm).mpr hs)]
  · have hb : s.fsm.busy = true := by
      rw [← Bool.not_eq_false, busy_eq_false_iff]
      exact not_or_intro hidle hdead
    rw [takeEvent, cancelOperation_busy s hb]

/-! ## Hard errors -/

/-- The bytes of the RX stream that an event brings. -/
def broughtBytes : Event → List Byte
  | .rxByte b => [b]
  | _ => []

/-- The event raises the hard error `c`, with the correlation bit `k`: `raise` is taken on the state
before it, with the byte of the event consumed and, if that is the checksum byte, stored (R139,
R180). -/
def Raises (e : Event) (s t : State) (c : ErrCode) (k : Bool) : Prop :=
  (∃ x, (x = s.x ∨ (s.fsm = .rCsum ∧ ∃ b, e = .rxByte b ∧ x = s.x.write s.cnt.toNat b)) ∧
    t = raiseError c k { s with x := x, rxLog := s.rxLog ++ broughtBytes e }) ∧
  c ≠ .none ∧ c ≠ .badRequest ∧ (k = true → c = .unknownCommand)

theorem Raises.results_eq {e : Event} {s t : State} {c : ErrCode} {k : Bool} (h : Raises e s t c k) :
    t.results = s.results ++ [.error c k] := by
  obtain ⟨⟨x, -, rfl⟩, -⟩ := h
  exact results_raiseError _ _ _

theorem Received.raises_or_no_error {b : Byte} {s t : State} (h : Received b (consume b s) t) :
    (∃ c k, Raises (.rxByte b) s t c k) ∨ ∀ c k, t.results ≠ s.results ++ [.error c k] := by
  cases h with
  | badHeader | badLength =>
    exact .inl ⟨_, _, ⟨s.x, .inl rfl, rfl⟩, nofun, nofun, nofun⟩
  | rejected e hf he =>
    refine .inl ⟨e, false, ⟨_, .inr ⟨hf, b, rfl, rfl⟩, rfl⟩, ?_, ?_, nofun⟩ <;>
      obtain rfl | rfl := he <;> nofun
  | uncorrelated _ hf =>
    exact .inl ⟨.unknownCommand, true, ⟨_, .inr ⟨hf, b, rfl, rfl⟩, rfl⟩, nofun, nofun, fun _ => rfl⟩
  | noVersion hf =>
    exact .inl ⟨.invalidLength, false, ⟨_, .inr ⟨hf, b, rfl, rfl⟩, rfl⟩, nofun, nofun, nofun⟩
  | firstHeader | skipped | secondHeader | body | header | length | payload | halfHeader | telemetry
    | recvDone | freqDone | verDone =>
    exact .inr fun c k => by simp [State.results, reportTelemetry, emit, recordResponse, consume]

/-- While an operation runs, an event raises a hard error or reports none. -/
theorem Transition.raises_or_no_error {e : Event} {s t : State} (h : Transition s e t)
    (hb : s.fsm.busy = true) :
    (∃ c k, Raises e s t c k) ∨ ∀ c k, t.results ≠ s.results ++ [.error c k] := by
  cases h with
  | received _ h => exact h.raises_or_no_error
  | timedOut =>
    exact .inl ⟨.serialTimeout, false, ⟨s.x, .inl rfl, by simp [broughtBytes]⟩, nofun, nofun, nofun⟩
  | sendFailed =>
    exact .inl ⟨.transportError, false, ⟨s.x, .inl rfl, by simp [broughtBytes]⟩, nofun, nofun, nofun⟩
  | refusedDead _ hf | refused _ hf | accepted hf => simp [hf, Fsm.busy] at hb
  | reset | cancelled | ignored | sentByte | sentFrame | sentRequest =>
    exact .inr fun c k => by simp [State.results, emit, txByte, resetRegisters]

/-- Settles O21: the ERROR reported is the one raised, and `raise` on the state before the event is
what the statement spells out. -/
theorem raiseWritesExactlyThis : Obligations.RaiseWritesExactlyThis := by
  refine ⟨fun _ _ _ => rfl, fun s t e c k h hb hres => ?_⟩
  obtain ⟨c', k', hr⟩ | hno := (transition_of_takeEvent h).raises_or_no_error hb
  · obtain ⟨rfl, rfl⟩ : c' = c ∧ k' = k := by simpa [hr.results_eq] using hres
    obtain ⟨⟨x, hx, rfl⟩, hnone, hbad, hcorr⟩ := hr
    refine ⟨hnone, hbad, hcorr, ?_, by cases e <;> rfl⟩
    exact hx.imp_right fun ⟨hf, b, he, hx⟩ => ⟨hf, b, he, hx ▸ holdsByte_write s.x s.cnt.toNat b⟩
  · exact absurd hres (hno c k)

end Sys2Proof.Machine

/-! PROOF. SEND, RECV, SETFREQ and GETVER end (60_exceptions.md rule R192, 70_reset_and_hazards.md
rules R213, R214): each transport event that such an operation takes ends it or lowers `stepsLeft`. -/

namespace Sys2Proof.Machine

open Sys2Proof.Safety

theorem stepsLeft_le (s : State) : stepsLeft s ≤ s.txLen.toNat + 255 := by
  rw [stepsLeft]
  split
  · split <;> omega
  all_goals omega

/-- The telemetry decoder runs for TLM only, so a running operation other than TLM has at least one
event to take. -/
theorem stepsLeft_pos {s : State} (hs : FrameInProgress s) (hb : s.fsm.busy = true)
    (hop : s.op ≠ .tlm) : 0 < stepsLeft s := by
  cases hf : s.fsm <;> simp only [FrameInProgress, hf] at hs
  case idle | dead => simp [hf, Fsm.busy] at hb
  case tSeek0 | tSeek1 | tRead => exact absurd hs.1 hop
  case rHdr | rLen | rCsum => simp [stepsLeft, hf]
  case cSend =>
    obtain ⟨hidx, -⟩ := hs
    simp only [stepsLeft, hf]
    omega
  case rPay =>
    obtain ⟨-, -, hc, -⟩ := hs
    simp only [stepsLeft, hf]
    omega

/-- `cnt` and `tx_idx` count up without wrapping below 255 (R13, R18). -/
theorem toNat_add_one {b : Byte} (h : b.toNat < 255) : (b + 1#8).toNat = b.toNat + 1 := by
  bv_omega

theorem Received.ends_or_advances {b : Byte} {s t : State} (h : Received b s t)
    (hs : FrameInProgress s) (hop : s.op ≠ .tlm) :
    t.fsm.busy = false ∨ stepsLeft t < stepsLeft s := by
  cases h with
  | firstHeader hf | skipped hf | secondHeader hf | halfHeader hf | body hf | telemetry _ _ _ _ hf =>
    simp only [FrameInProgress, hf] at hs
    exact absurd hs.1 hop
  | header hf | length hf => exact .inr (by simp [stepsLeft, hf])
  | payload hf =>
    simp only [FrameInProgress, hf] at hs
    obtain ⟨-, -, hc, -⟩ := hs
    have hcnt := toNat_add_one (b := s.cnt) (by omega)
    right
    by_cases hlast : s.cnt.toNat + 2 = s.len.toNat
    · simp only [stepsLeft, hf, if_pos hlast]
      omega
    · simp only [stepsLeft, hf, if_neg hlast, hcnt]
      omega
  | badHeader | badLength | noVersion | uncorrelated | recvDone | freqDone | verDone => exact .inl rfl
  | rejected e _ he => exact .inl (by obtain rfl | rfl := he <;> rfl)

/-- Every transport event that a running operation other than TLM takes ends it or brings it nearer
to its end (R192). -/
theorem Transition.ends_or_advances {e : Event} {s t : State} (h : Transition s e t)
    (hs : FrameInProgress s) (hop : s.op ≠ .tlm) (he : transportEvent e = true)
    (hen : enabled e s.fsm = true) : t.fsm.busy = false ∨ stepsLeft t < stepsLeft s := by
  cases h with
  | reset | cancelled | refusedDead | refused | accepted => cases he
  | ignored e h =>
    obtain h | ⟨rfl, -⟩ := h
    · exact absurd hen (by simp [h])
    · cases he
  | received _ h => exact h.ends_or_advances hs hop
  | timedOut | sentFrame | sendFailed => exact .inl rfl
  | sentByte b hf hi =>
    have hidx := toNat_add_one (b := s.txIdx) (by omega)
    right
    simp only [stepsLeft, hf]
    refine Nat.add_lt_add_right ?_ _
    rw [hidx]
    exact Nat.sub_succ_lt_self _ _ (Nat.lt_of_succ_lt hi)
  | sentRequest b hf hi hop =>
    have hsend : s.op ≠ .send := by obtain hop | hop := hop <;> simp [hop]
    right
    simp only [stepsLeft, hf, if_neg hsend]
    omega

/-- A transport event leaves `op` (R17). -/
theorem op_of_transportEvent {e : Event} {s t : State} (h : takeEvent e s = .next t)
    (he : transportEvent e = true) : t.op = s.op := by
  have hne : e ≠ .reset := by rintro rfl; cases he
  refine ((requestRegistersAreLatched s t e h hne).2 ?_).1
  rintro r rfl
  cases he

/-- The operation ends within `stepsLeft` of the events, by induction on the run: the first event ends
it, or the rest of the run is long enough for what is left of it. -/
theorem operation_ends (es : List Event) {s : State} (hs : Inv s) (hb : s.fsm.busy = true)
    (hop : s.op ≠ .tlm) (hes : ∀ e ∈ es, transportEvent e = true) (hen : EnabledRun es s)
    (hlen : stepsLeft s ≤ es.length) :
    ∃ n t, n ≤ stepsLeft s ∧ takeEvents (es.take n) s = .next t ∧ t.fsm.busy = false := by
  have hpos := stepsLeft_pos hs.frame hb hop
  induction es generalizing s with
  | nil => exact absurd hlen (Nat.not_le.mpr hpos)
  | cons e es ih =>
    obtain ⟨he, hes⟩ := List.forall_mem_cons.mp hes
    obtain ⟨hfirst, hrest⟩ := hen hb
    obtain ⟨t, ht⟩ := takeEvent_answers hs e
    have hrow := transition_of_takeEvent ht
    by_cases hbt : t.fsm.busy = true
    · have hless := (hrow.ends_or_advances hs.frame hop he hfirst).resolve_left (by simp [hbt])
      have hopt : t.op ≠ .tlm := op_of_transportEvent ht he ▸ hop
      obtain ⟨n, u, hn, hu, hbu⟩ := ih (hrow.inv hs) hbt hopt hes (hrest t ht)
        (Nat.le_of_lt_succ (Nat.lt_of_lt_of_le hless hlen))
        (stepsLeft_pos (hrow.inv hs).frame hbt hopt)
      refine ⟨n + 1, u, Nat.lt_of_le_of_lt hn hless, ?_, hbu⟩
      rw [List.take_succ_cons, takeEvents, ht, andThen_next, hu]
    · refine ⟨1, t, hpos, ?_, Bool.not_eq_true _ ▸ hbt⟩
      rw [List.take_succ_cons, takeEvents, ht, andThen_next, List.take_zero, takeEvents]

/-- Settles O51. -/
theorem commandOperationsEnd : Obligations.CommandOperationsEnd := by
  intro s es hs hb hop hes hen hlen
  obtain ⟨n, t, hn, ht, hbt⟩ := operation_ends es hs hb hop hes hen hlen
  exact ⟨stepsLeft_le s, n, t, hn, ht, (busy_eq_false_iff t.fsm).mp hbt⟩

end Sys2Proof.Machine

/-! PROOF. Reset, and the end of an operation (70_reset_and_hazards.md): the values Reset gives (R200),
what the block shows and takes right after it (R201), and the one result that an operation ends with
(R213). -/

namespace Sys2Proof.Machine

/-! ## Reset -/

/-- Settles O18: what Reset leaves is, field by field, the reset state with the three streams kept. -/
theorem resetGivesResetValues : Obligations.ResetGivesResetValues :=
  fun _ => rfl

/-- The events of R15 in `IDLE`. -/
theorem enabled_idle_iff (e : Event) :
    enabled e .idle = true ↔ e = .reset ∨ e = .cancel ∨ ∃ r, e = .hostReq r := by
  cases e <;> simp [enabled, Fsm.busy, Fsm.receiving]

/-- Settles O19: the block is in `IDLE` with every register 0, so the clauses on events are R15's row of
`IDLE`. -/
theorem afterResetOnlyRequests : Obligations.AfterResetOnlyRequests := by
  intro s t h
  cases h
  refine ⟨rfl, rfl, rfl, rfl, rfl, rfl, rfl, fun i => ⟨?_, ?_⟩, fun p e he => ?_, fun r => ?_, ?_⟩
  · simp [hostReadX, State.reset]
  · simp [hostReadT, State.reset]
  · exact (enabled_idle_iff e).mp (enabled_of_portEvent he)
  · exact (exists_portEvent_iff _ _).mpr ((enabled_idle_iff _).mpr (.inr (.inr ⟨r, rfl⟩)))
  · exact congrArg _ (cancelOperation_idle _ rfl)

/-! ## The end of an operation -/

@[simp] theorem results_emit (q : Result) (s : State) : (emit q s).results = s.results ++ [q] := by
  simp [State.results]

/-- One result event is emitted, and it is not one of the two that a telemetry operation goes on after
(R104, R106). -/
def EmitsFinalResult (s t : State) : Prop :=
  ∃ q, t.results = s.results ++ [q] ∧ q ≠ .tlmHdrInvalid ∧ ∀ d st r ok, q ≠ .tlmFrame d st r ok

/-- A hard error is a final result (R180). -/
theorem emitsFinalResult_raiseError (c : ErrCode) (k : Bool) (s : State) :
    EmitsFinalResult s (raiseError c k s) :=
  ⟨_, results_raiseError c k s, nofun, nofun⟩

/-- A received byte leads to a state that waits for the next one, or it ends the operation with a hard
error or with the result of its response. -/
theorem Received.emitsFinalResult {b : Byte} {s t : State} (h : Received b s t)
    (ht : t.fsm.busy = false) : EmitsFinalResult s t := by
  cases h with
  | firstHeader | skipped | secondHeader | halfHeader | body | telemetry | header | length => cases ht
  | payload => dsimp only at ht; split at ht <;> cases ht
  | badHeader | badLength | rejected | uncorrelated | noVersion =>
    exact emitsFinalResult_raiseError _ _ _
  | recvDone | freqDone | verDone => exact ⟨_, results_emit _ _, nofun, nofun⟩

/-- Only Cancel and Reset end an operation without a result (R184, R200, R213). -/
theorem Transition.emitsFinalResult {e : Event} {s t : State} (h : Transition s e t)
    (hs : s.fsm.busy = true) (ht : t.fsm.busy = false) (hcancel : e ≠ .cancel) (hreset : e ≠ .reset) :
    EmitsFinalResult s t := by
  cases h with
  | reset => exact absurd rfl hreset
  | cancelled => exact absurd rfl hcancel
  | ignored => simp [hs] at ht
  | refusedDead _ hf | refused _ hf | accepted hf => simp [hf, Fsm.busy] at hs
  | received _ h => exact h.emitsFinalResult ht
  | timedOut | sendFailed => exact emitsFinalResult_raiseError _ _ _
  | sentByte | sentRequest => cases ht
  | sentFrame => exact ⟨.sendDone, by simp [State.results], nofun, nofun⟩

/-- Settles O59. -/
theorem operationEndsWithOneResult : Obligations.OperationEndsWithOneResult := by
  intro s t e h hs ht
  refine ⟨?_, (transition_of_takeEvent h).emitsFinalResult hs ht⟩
  rintro (rfl | rfl)
  · rw [takeEvent, cancelOperation_busy s hs] at h
    cases h
    rfl
  · cases h
    rfl

end Sys2Proof.Machine
